-- ==== Sys2Proof/Word.lean ====
section
/-! DEFINITION. The word types of the manual (00_scope.md, Conventions) and the sparse table that every array of the
state is held in. Nothing here computes more than a name for a width. -/

namespace Sys2Proof

/-- One byte. -/
abbrev Byte := BitVec 8

/-- One 64-bit word of the control window (14_registers.md). -/
abbrev Word64 := BitVec 64

/-- One 256-byte flit: byte i on bits 8i+7:8i (R31, 02_stream_ports.md). -/
abbrev FlitData := BitVec 2048

/-- A 256-bit sideband (R37, R40, R42, 02_stream_ports.md). -/
abbrev Sideband := BitVec 256

/-- A 128-byte mailbox command (R244, 11_mailboxes.md): byte i on bits 8i+7:8i (R9). -/
abbrev CommandWord := BitVec 1024

/-- A 64-byte mailbox response (R245, 11_mailboxes.md): byte i on bits 8i+7:8i (R9). -/
abbrev ResponseWord := BitVec 512

/-- A 32-byte event record, a Pip (R406, 18_records.md). -/
abbrev Pip := BitVec 256

/-- A sparse array. Entries are (index, value), indices strictly rising, and no entry holds the array's default, so
that equal arrays are equal data. `Sys2Proof.Machine.Tbl` reads and writes it. -/
abbrev Tbl (α : Type) := List (Nat × α)

/-- One value for each of the four traffic classes (R84, 04_scheduling.md). -/
structure Quad (α : Type) where
  c0 : α
  c1 : α
  c2 : α
  c3 : α
deriving DecidableEq, Repr

end Sys2Proof
end

