-- ==== Sys2Proof/Syntax.lean ====
section
/-! DEFINITION. The commands of the block: one constructor for each row of the table of steps. Operands are what reaches
the block from outside with the command, and the outcomes of physical checks that the state cannot decide. -/

namespace Sys2Proof

/-- One ingress flit as the host presents it (R31, R32, 02_stream_ports.md). -/
structure IngressFlit where
  /-- PI_CLASS. -/
  cls : Fin 4
  /-- PI_HEAD. -/
  head : Bool
  /-- PI_TAIL. -/
  tail : Bool
  /-- PI_ABORT. -/
  abort : Bool
  /-- PI_SB. -/
  sb : Sideband
  /-- PI_DATA. -/
  data : FlitData
  /-- This flit is in the ingress cycle after the one of the port's previous flit (R33). -/
  consec : Bool
deriving DecidableEq, Repr

/-- Where a check of R361 disagrees: a round stage, a tweak or GHASH product computed twice, or the fold tree. -/
inductive CheckSite where
  | stage (k : Fin 256)
  | multiply
  | fold
deriving DecidableEq, Repr

/-- A block that fails its check (R361, 16_degraded.md): its lane and where the comparison disagreed. -/
structure BlockFail where
  lane : Fin 16
  site : CheckSite
deriving DecidableEq, Repr

/-- An error in the products that the parity cells of a Currant byte lane form for a flit (R365, 16_degraded.md): what is
XORed onto their sum. -/
structure LaneUpset where
  lane : Fin 256
  error : BitVec 8
deriving DecidableEq, Repr

/-- A block of a line that fails its check in a line slice of its port (R361, R364, 16_degraded.md): the line, the block,
the slice it ran on and where the comparison disagreed. -/
structure LineFail where
  addr : BitVec 46
  block : Fin 4
  slice : Fin 9
  site : CheckSite
deriving DecidableEq, Repr

/-- An access of Dolha's own to a line of a VITAL region (R184, R192, 08_lines.md). -/
structure OwnAccess where
  region : Fin 4096
  write : Bool
  addr : BitVec 46
  data : BitVec 512
deriving DecidableEq, Repr

/-- What the hardware of a line port meets in a step (08_lines.md): blocks that fail their check (R361, R364), stored bytes of
line keys that read wrong (R116, R181), and an access of Dolha's own that enters the line slices (R184, R192). -/
structure LineMeets where
  fails : List LineFail := []
  bad : List (Fin 4096 × Fin 80) := []
  own : Option OwnAccess := none
deriving DecidableEq, Repr

/-- The clocks the host gives the ports (Table 1.2, 01_structure.md). -/
inductive PortClock where
  | ingress (p : Fin 64)
  | egress (p : Fin 64)
  | line (p : Fin 32)
deriving DecidableEq, Repr

/-- A key cache slot (R114) or a line key entry (R181). -/
inductive KeyRef where
  | slot (k : Fin 1048576)
  | entry (e : Fin 4096)
deriving DecidableEq, Repr

/-- A request of the host fabric on FQ (Table 8.1, 08_lines.md). -/
structure LineRequest where
  /-- FQ_WRITE. -/
  write : Bool
  /-- FQ_ADDR. -/
  addr : BitVec 46
  /-- FQ_KIDX. -/
  kidx : BitVec 12
  /-- FQ_TAG. -/
  tag : BitVec 8
  /-- FQ_DATA. -/
  data : BitVec 512
deriving DecidableEq, Repr

/-- Read data of the host memory controller on MD (Table 8.1, 08_lines.md). -/
structure LineReturn where
  /-- MD_TAG. -/
  tag : BitVec 9
  /-- MD_DATA. -/
  data : BitVec 512
  /-- MD_META. -/
  metadata : BitVec 32
  /-- MD_ECC: 0 CLEAN, 1 CORRECTED, 2 UNCORRECTABLE, 3 POISONED. -/
  ecc : BitVec 2
deriving DecidableEq, Repr

/-- One access of the control port (R241, R328): its width in bytes, its direction, its data. -/
structure Access where
  /-- Byte offset within the page. -/
  off : Fin 4096
  /-- Access width in bytes; only 8 is legal. -/
  size : Nat
  /-- A write, or a read. -/
  write : Bool
  /-- Write data. -/
  data : Word64
deriving DecidableEq, Repr

/-- The pages that hold an ATT_EN register (R336, 14_registers.md). -/
inductive AttPage where
  | mailbox (mb : Fin 1028)
  | bramble
  | event
  | fault
deriving DecidableEq, Repr

/-- The identity of a stripe row on its port (R161, 07_shards.md). -/
structure RowId where
  tenant : Fin 1024
  queue : Fin 16
  profile : Fin 64
  stripe : BitVec 16
deriving DecidableEq, Repr

/-- What data with an uncorrectable error is needed for (R349, 15_faults.md; R377, 16_degraded.md). -/
inductive Damage where
  /-- The request of a context entry of a port. -/
  | request (p : Fin 64) (ctx : Fin 4096)
  /-- The open stripe row of a Currant whose accumulators hold it. -/
  | row (u : Fin 64) (id : RowId)
  /-- The message at a place among those that wait for admission in a class of a port. -/
  | waiting (p : Fin 64) (c : Fin 4) (i : Fin 256)
  /-- Quince's mirror of the unit state table. -/
  | mirror
deriving DecidableEq, Repr

/-- An entry of a critical array (Table 17.4, 17_boundary.md). -/
inductive ShadowEntry where
  /-- Of the slot policy table. -/
  | slot (k : Fin 1048576)
  /-- Of the line key descriptors. -/
  | lineKey (e : Fin 4096)
  /-- Of the region table replica of group g, in the copy in force or in the copy of the older live generation. -/
  | region (g : Fin 8) (r : Fin 4096) (older : Bool)
  /-- Of the unit state table. -/
  | unit (id : BitVec 16)
  /-- Of the tenant table, in the copy in force or in the copy of the older live generation. -/
  | tenant (t : Fin 1024) (older : Bool)
  /-- Damson's lease state. -/
  | lease
  /-- Of the fault sticky array. -/
  | sticky (i : Fin 4096)
  /-- Of the severity map and floors. -/
  | severity (i : Fin 4096)
  /-- Rind's state. -/
  | rind
deriving DecidableEq, Repr

/-- How a fault message comes to the collector (R342 to R344, 15_faults.md). -/
inductive FaultOrigin where
  /-- The oldest message that waits in a lane of the network. -/
  | waiting (lane : Fin 4)
  /-- The oldest message of a lane arrives with a single-bit error. -/
  | corrected (lane : Fin 4)
  /-- The oldest message of a lane arrives with an uncorrectable error. -/
  | unreadable (lane : Fin 4)
  /-- A unit forms a message of its own check and it is delivered; `damage` is what its bookkeeping says needs the data
  (R349). -/
  | formed (src : BitVec 16) (kind : BitVec 8) (ctx : BitVec 32) (damage : List Damage)
deriving DecidableEq, Repr

/-- What the boot finds outside the state (R442, R468): the CORE_MUL inputs, PFAIL_N, which devices answer discovery
and the slices that fail their boot test. -/
structure BootInputs where
  /-- CORE_MUL[4:0] as sampled (R468). -/
  coreMul : Fin 32
  /-- PFAIL_N is low, after its deglitch, at the rise of PWR_OK (R444). -/
  pfail : Bool
  /-- Device 0 answers discovery (R420). -/
  answers0 : Bool
  /-- Device 1 answers discovery (R420). -/
  answers1 : Bool
  /-- Stream slices that fail the boot test, as 17c + s (R369). -/
  badStream : List (Fin 1088)
  /-- Line slices that fail the boot test, as 9p + s (R370). -/
  badLine : List (Fin 288)
  /-- Currants that fail the boot test (R368). -/
  badCurrant : List (Fin 64)
deriving DecidableEq, Repr

/-- What a Rind monitor has sampled when it reports (Tables 17.2 and 17.6, 17_boundary.md). -/
inductive MonitorSample where
  /-- A temperature reading in 1/16 °C, and the one before it. -/
  | temp (reading before : BitVec 16)
  /-- An excursion of the core supply: its side, how far from nominal in 0.1 %, how long in ns. -/
  | volt (high : Bool) (permille ns : Nat)
  /-- Edges counted in a window, and in the window before it. -/
  | clock (count before : BitVec 32)
  /-- The six half-tick returns of a mesh pair in the last three ticks, oldest in bit 5. -/
  | mesh (returned : BitVec 6)
  /-- The samples of a pin or light detector in the last three ticks, oldest in bit 2. -/
  | input (samples : BitVec 3)
deriving DecidableEq, Repr

/-- The commands. -/
inductive Instr where
  /-- INGRESS_FLIT (R32). A flit of one class, with its sideband when PI_HEAD is set, arrives on a stream port ingress and is written to the class pool of the ingress queue. -/
  | ingressFlit (p : Fin 64) (f : IngressFlit)
  /-- ADMISSION (R48). A head leaves the ingress queue once nothing makes it wait; the checks of Table 2.9 are applied and the message is admitted or rejected.
  `bad` lists bytes of stored slots, code bytes among them, that read wrong (R116). -/
  | admission (p : Fin 64) (c : Fin 4) (bad : List (Fin 1048576 × Fin 80))
  /-- FLIT_GAP_TIMEOUT (R52). The flit gap timer of an open ingress message reaches FLIT_GAP and the message ends with ST_TIMEOUT. -/
  | flitGapTimeout (p : Fin 64) (c : Fin 4)
  /-- FLIT_ISSUE (R89). The cluster issue stage starts a flit's blocks into its slices, giving class 0 priority and suspending lower classes at block boundaries. -/
  | flitIssue (cl : Fin 64) (fails : List BlockFail)
  /-- BLOCK_RETRY (R362). A block that failed its round check is computed again on another slice, in a retry cycle or on the standby slice. -/
  | blockRetry (cl : Fin 64) (fails : List BlockFail)
  /-- CURRANT_FLIT (R27). A Currant takes one flit from the return half or from admission and adds it to its accumulators or reconstruction. -/
  | currantFlit (u : Fin 64) (upset : List LaneUpset)
  /-- CHECK_COLUMN_REPASS (R366). A flit whose check column disagreed passes through the Currant lanes again in the next cycle, and the row is discarded on a second disagreement. -/
  | checkColumnRepass (u : Fin 64) (upset : List LaneUpset)
  /-- VERDICT (R72). The last GHASH row and tag of a message complete and its verdict becomes final. -/
  | verdict (p : Fin 64) (ctx : Fin 4096)
  /-- EGRESS_CREDIT (R46). The host grants one egress credit of a class on PE_CRED, which restarts that class's stall timer. -/
  | egressCredit (p : Fin 64) (c : Fin 4)
  /-- EGRESS_FLIT_DRIVE (R46). The port drives a ready egress flit against credit, class 0 first, including STATUS, ZERO_FILL, parity and fence reports. -/
  | egressFlitDrive (p : Fin 64)
  /-- PORT_STALL_EVENT (R47). A class stall timer reaches 20 µs and EV_PORT_STALL is raised. -/
  | portStallEvent (p : Fin 64) (c : Fin 4)
  /-- PORT_STALL_FENCE (R47). A class stall timer reaches 200 µs and the port is fenced as a whole. -/
  | portStallFence (p : Fin 64) (c : Fin 4)
  /-- CLOCK_LOSS (R18). Rind sees no edge on a port clock for 64 AON cycles and reports the clock lost. -/
  | clockLoss (clk : PortClock)
  /-- SUBLEASE_REFILL (R141). Damson serves a new sub-lease to a cluster register that asked for one, and starts the next lease reservation at sub-lease 0x8000. -/
  | subleaseRefill
  /-- LEASE_RESERVED (R139). A lease record is verified on both flash devices; the shadow and the highest reserved lease are set, and any slot change revokes and refills the sub-leases. -/
  | leaseReserved
  /-- LEASE_RETRY (R145). While LEASE_BLOCKED is set, Damson tries the whole reservation again once every second. -/
  | leaseRetry
  /-- FLASH_PROGRAM_DONE (R426). A flash program operation and its read-back complete on a device. -/
  | flashProgramDone (d : Fin 2) (ok : Bool)
  /-- FLASH_ERASE_DONE (R428). A sector erase and its blank check complete, and the completion record is written. -/
  | flashEraseDone (d : Fin 2) (ok : Bool)
  /-- KEY_SCRUB (R116). The scrubber reads a key cache slot, corrects it or, if it is uncorrectable, empties it through CLEARING.
  `bad` lists the stored bytes, code bytes among them, that read wrong. -/
  | keyScrub (k : KeyRef) (bad : List (Fin 80))
  /-- KEY_CLEARING_DONE (R117). The CLEARING sweep of a slot or line key entry ends and it becomes EMPTY with its generation advanced. -/
  | keyClearingDone (k : KeyRef)
  /-- DUAL_SESSION_EXPIRY (R128). A dual-control session reaches its expiry; the stored shares are zeroized and the target is released. -/
  | dualSessionExpiry
  /-- ENROL_ALLOW_EXPIRY (R251). An enrolment allowance reaches the end of DUAL_WINDOW. -/
  | enrolAllowExpiry (o : Fin 2)
  /-- OFFICER_LOCKOUT_END (R255). The 60 s lockout of an officer page ends and its failure count restarts. -/
  | officerLockoutEnd (o : Fin 2)
  /-- LINE_REQUEST (R180). A fabric request is taken on a line port lane, checked against the region table and sent to a slice and the controller, refused, or held. -/
  | lineRequest (p : Fin 32) (lane : Fin 2) (q : LineRequest) (met : LineMeets)
  /-- LINE_READ_DATA (R188). Controller read data returns; it is decrypted, its MAC is checked against the ECC status and the response is driven. -/
  | lineReadData (p : Fin 32) (lane : Fin 2) (d : LineReturn) (met : LineMeets)
  /-- LINE_WRITE_TAKEN (R175). The controller takes a write; the write is answered, and the sweep or rekey boundary advances. -/
  | lineWriteTaken (p : Fin 32) (lane : Fin 2) (met : LineMeets)
  /-- SWEEP_WRITE (R191). Bramble issues the next initialisation write of a sweeping region within the background budget. -/
  | sweepWrite (r : Fin 4096) (met : LineMeets)
  /-- LINE_WINDOW_OPEN (R214). A line rekey window opens once the fabric requests that overlap it have been issued or answered. -/
  | lineWindowOpen (r : Fin 4096)
  /-- LINE_REKEY_READ (R215). Bramble issues a read of a line in the open window to re-encrypt it under NKEY. -/
  | lineRekeyRead (r : Fin 4096)
  /-- LINE_REKEY_SWAP (R217). After RB passes the region, Bramble requests the write that makes NKEY the current key, repeating every 10 µs on ST_GEN_BUSY. -/
  | lineRekeySwap (r : Fin 4096)
  /-- REKEY_NO_KEY_RETRY (R218). An automatic re-encryption that could not start is tried again every second. -/
  | rekeyNoKeyRetry (r : Fin 4096)
  /-- WINDOW_PENDING (R206). A live range's next window becomes pending when a window is free under FETCH_OUT, in round-robin order of job. -/
  | windowPending
  /-- WINDOW_OPEN (R206). No request overlapping a pending window remains, so the window opens and a fetch descriptor is queued. -/
  | windowOpen (job : Fin 4096)
  /-- BRAMBLE_FETCH_READ (R333). A read of word 0 of BRAMBLE_FETCH removes and latches the head fetch descriptor. -/
  | brambleFetchRead
  /-- BRAMBLE_DONE (R208). Host software writes JOB and FSEQ, and a matching write moves B to the window's end and closes the window. -/
  | brambleDone (data : Word64)
  /-- FETCH_LIMIT_EXPIRY (R210). FETCH_LIMIT passes for an open window, which closes unchanged or raises EV_REKEY_STALL and the fetch cause again. -/
  | fetchLimitExpiry (job : Fin 4096)
  /-- GENERATION_DRAIN (R223). The older live configuration generation has no request left, so LIVE2 clears and its copy is freed. -/
  | generationDrain
  /-- DISPATCH_REWRITE (R87). Quince rewrites DISPATCH_MAP after a cluster fence, repeating every 10 µs while two generations are live. -/
  | dispatchRewrite
  /-- TENANT_SWEEP_DONE (R233). A tenant reset's reclamation sweep ends; the tenant leaves RESETTING and the reset response is written. -/
  | tenantSweepDone (t : Fin 1024)
  /-- TENANT_PURGE_DONE (R236). The key purge of a disable ends and the tenant becomes DISABLED. -/
  | tenantPurgeDone (t : Fin 1024)
  /-- AUTH_INTERVAL (R238). A 1 s interval of the authentication-failure count ends and the counts restart at zero. -/
  | authInterval
  /-- MB_COMMAND_WRITE (R241). An access to a mailbox command area is accepted, or refused and counted in MB_ERRORS. -/
  | mbCommandWrite (mb : Fin 1028) (a : Access)
  /-- MB_DOORBELL (R242). A write to MB_DOORBELL submits FREE slots in ascending order. -/
  | mbDoorbell (mb : Fin 1028) (data : Word64)
  /-- MB_DONE (R242). A write to MB_DONE frees DONE slots. -/
  | mbDone (mb : Fin 1028) (data : Word64)
  /-- JOB_END (R249). A mailbox job ends; its result is stored and the JOB attention cause of its mailbox is raised. -/
  | jobEnd (handle : BitVec 32)
  /-- ATTENTION_TRANSFER (R256). The host takes an attention entry with ATT_READY. -/
  | attentionTransfer
  /-- ATT_EN_WRITE (R336). A write to ATT_EN enables causes, and pending enabled causes are written to the attention queue. -/
  | attEnWrite (page : AttPage) (data : Word64)
  /-- CFG_COMMIT_GO (R330). Writing 1 to CFG_COMMIT.GO requests a commit of the dirty staged registers. -/
  | cfgCommitGo
  /-- CFG_COMMIT_DISCARD (R330). Writing 1 to CFG_COMMIT.DISCARD reloads the staged copies and clears the dirty marks. -/
  | cfgCommitDiscard
  /-- CFG_COMMIT_APPLY (R330). In the owner mailbox's turn, Quince applies the dirty staged registers as one generation. -/
  | cfgCommitApply
  /-- STAGED_REGISTER_WRITE (R330). A write to a staged register changes its staged copy and marks it dirty, stalling while a commit runs. -/
  | stagedRegisterWrite (off : Fin 4096) (data : Word64)
  /-- PORT_CREDIT_WRITE (R44). A PORT_CREDIT write is checked against the pool rules and held for the next enable. -/
  | portCreditWrite (p : Fin 64) (data : Word64)
  /-- PORT_TIMERS_WRITE (R334). A FLIT_GAP change applies to every running and new flit gap timer. -/
  | portTimersWrite (data : Word64)
  /-- KEY_DATA_WRITE (R120). A write to a KEY_DATA word sets that word and its written flag. -/
  | keyDataWrite (t : Fin 1024) (w : Fin 8) (data : Word64)
  /-- KSHARE_WRITE (R129). A write to a KSHARE word of an officer page sets that word and its written flag. -/
  | kshareWrite (o : Fin 2) (w : Fin 8) (data : Word64)
  /-- BLOB_WRITE (R262). A write to a BLOB word sets that word and its written flag. -/
  | blobWrite (mb : Fin 1028) (w : Fin 16) (data : Word64)
  /-- FAULT_STICKY_CLEAR (R339). Writing 1 to a FAULT_STICKY bit clears it, unless a HALT holds it or a new cause sets it. -/
  | faultStickyClear (w : Fin 64) (data : Word64)
  /-- ALARM_MAP_CLEAR (R238). Writing 1 to an ALARM_MAP bit clears that tenant's ALARM bit. -/
  | alarmMapClear (w : Fin 16) (data : Word64)
  /-- RNG_DATA_READ (R337). A read of RNG_DATA returns 64 fresh DRBG bits, stalls until seeding, or ends in an error response. -/
  | rngDataRead
  /-- EVT_CURSOR_WRITE (R338). A write to EVT_CURSOR starts a fill of the event window. -/
  | evtCursorWrite (data : Word64)
  /-- EVT_WINDOW_READ (R338). A read of EVT_WINDOW stalls while LOADING is set and then returns a Pip. -/
  | evtWindowRead (w : Fin 256)
  /-- EVT_WINDOW_FILL_DONE (R338). An event window fill ends and LOADING clears. -/
  | evtWindowFillDone
  /-- STAGING_WINDOW_WRITE (R341). A write to the staging window is stored while a session is open and no write job runs, and is discarded otherwise. -/
  | stagingWindowWrite (off : Fin 131072) (data : Word64)
  /-- REGISTER_WRITE (R328). A control port write to any other register sets its RW fields, or ends in an error response for a bad access or an out-of-range value. -/
  | registerWrite (off : BitVec 23) (a : Access)
  /-- FAULT_MESSAGE (R350). The fault collector handles one fault message, updates REPEAT and the sticky bit, writes a Pip and orders the reaction of its effective severity. -/
  | faultMessage (o : FaultOrigin)
  /-- UNIT_RESET_DONE (R352). A unit reset ends, the unit returns to service and its settle window starts to run out. -/
  | unitResetDone (unit : BitVec 16)
  /-- SETTLE_WINDOW_CLOSE (R358). SETTLE passes after a reset or fence and the shadow-set masking ends. -/
  | settleWindowClose (unit : BitVec 16)
  /-- HALT_EGRESS_TIMEOUT (R355). 20 µs after a HALT, egress ports stop driving closing flits and hold PE_VALID low. -/
  | haltEgressTimeout
  /-- ZEROIZE_SWEEP_DONE (R134). The physical sweep ends; every slot and KEK slot is emptied and the zeroization evidence is recorded. -/
  | zeroizeSweepDone
  /-- KAT_RUN (R367). A slice or Currant lane runs its known-answer test in a free cycle, and a failure raises FK_KAT. -/
  | katRun (unit : BitVec 16) (pass : Bool)
  /-- KAT_FORCE (R368). 9 ms pass without a free cycle since a unit's last test, so the unit takes a forced test cycle. -/
  | katForce (unit : BitVec 16) (pass : Bool)
  /-- STANDBY_ROTATE (R368). Every 1 ms a line port moves its standby role to the next slice. -/
  | standbyRotate (p : Fin 32)
  /-- SHADOW_WALKER (R391). The walker compares an SRAM critical array entry with its inverted copy and raises FK_SHADOW on a disagreement.
  `upset` and `upsetInv` are the bits in which the entry and its inverted copy read wrong after ECC, and `bad` an uncorrectable error in either. -/
  | shadowWalker (item : ShadowEntry) (upset upsetInv : BitVec 1024) (bad : Bool)
  /-- MONITOR_TRIP (R387). A Rind monitor meets its trip filter; zeroize is asserted, a fault message is sent and evidence is taken. -/
  | monitorTrip (n : Fin 24) (sample : MonitorSample)
  /-- TEMP_WARN (R383). A temperature reading beyond the service range records EV_TEMP_WARN. -/
  | tempWarn (site : Fin 8) (reading : BitVec 16)
  /-- PFAIL_LOW_CROSSING (R385). A low-side voltage crossing while PFAIL_N is asserted asserts zeroize and enters HALT without evidence. -/
  | pfailLowCrossing
  /-- TAMPER_LATCH_CLEAR (R388). A TRIPPED latch clears after 2^20 passing ticks and EV_TAMPER_CLEAR is recorded. -/
  | tamperLatchClear (n : Fin 24)
  /-- SLOE_FAIL (R400). A Sloe source fails a health test and is excluded; the random unit may enter FAILED. -/
  | sloeFail (src : Fin 8) (test : Bool)
  /-- SLOE_REJOIN (R400). An excluded source passes 4,096 further samples and rejoins. -/
  | sloeRejoin (src : Fin 8)
  /-- DRBG_RESEED (R402). After 2^16 generate calls or 1 s, the DRBG reseeds from three fresh blocks. -/
  | drbgReseed
  /-- SEEDING_DONE (R403). Seeding completes, SEEDED sets and waiting consumers are served. -/
  | seedingDone
  /-- RECORDER_FLUSH_TIMER (R412). 100 ms pass since the filling half's first Pip, so the half is handed to flash. -/
  | recorderFlushTimer
  /-- RECORDER_HALF_VERIFIED (R414). A buffer half reads back on every device in service and is freed; when the log fills, EV_LOG_FULL is written. -/
  | recorderHalfVerified
  /-- MIRROR_RECOVERY_DONE (R427). A returning flash device's directory is verified and the device returns to service. -/
  | mirrorRecoveryDone (d : Fin 2)
  /-- HANDOVER_BEGIN (R447). After the load and the executing command complete, HANDOVER sets and the old firmware writes its handover block. -/
  | handoverBegin
  /-- HANDOVER_READY (R447). The new firmware takes up the handover block and signals ready; HANDOVER clears and mailboxes are served. -/
  | handoverReady
  /-- HANDOVER_TIMEOUT (R448). The new firmware has not signalled ready 50 ms after the handover began, so hardware returns to the old bank. -/
  | handoverTimeout
  /-- PFAIL_ASSERT (R446). PFAIL_N is asserted after its deglitch and the activities that use flash stop or finish. -/
  | pfailAssert
  /-- PFAIL_DEASSERT (R446). PFAIL_N deasserts while power holds and the flash activities resume. -/
  | pfailDeassert
  /-- POWER_ON_RESET (R442). PWR_OK rises; SRAM is cleared and the boot steps B1 to B8 run, including evidence, key derivation, lease recovery and the vault load. -/
  | powerOnReset (boot : BootInputs)
  /-- BOOT_READY (R442). Boot step B9 applies the settings, draws CK and starts the VITAL sweeps, and DSTATE reads READY. -/
  | bootReady
  /-- POWER_LOSS (R467). PWR_OK falls, which loses the device's volatile state. -/
  | powerLoss
  /-- AON_SUPPLY_START (R380). The always-on supply starts and Rind's AON domain starts with its initial values. -/
  | aonSupplyStart
  /-- HOST_RESET_ASSERT (R475). HOST_RST_N goes low; control accesses end in errors and every port is disabled. -/
  | hostResetAssert
  /-- HOST_RESET_RELEASE (R476). HOST_RST_N is released and the reach of Table 21.5 is applied. -/
  | hostResetRelease
  /-- XN_DEVICE_QUERY (R264). Returns the device status. -/
  | xnDeviceQuery (mb : Fin 1028)
  /-- XN_JOB_QUERY (R265). Returns the state or stored result of a job. -/
  | xnJobQuery (mb : Fin 1028)
  /-- XN_PORT_CTL (R266). Enables, disables or reopens a stream or line port. -/
  | xnPortCtl (mb : Fin 1028)
  /-- XN_PORT_QUERY (R267). Returns a port's state. -/
  | xnPortQuery (mb : Fin 1028)
  /-- XN_DEVICE_ZEROIZE (R268). The owner commands a HALT or ZEROIZE. -/
  | xnDeviceZeroize (mb : Fin 1028)
  /-- XN_FACTORY_LOCK (R269). Programs the factory lock fuse. -/
  | xnFactoryLock (mb : Fin 1028) (ok : Bool)
  /-- XN_TENANT_ENABLE (R270). Enables a DISABLED tenant. -/
  | xnTenantEnable (mb : Fin 1028)
  /-- XN_TENANT_DISABLE (R271). Resets a tenant and purges its keys as a job. -/
  | xnTenantDisable (mb : Fin 1028)
  /-- XN_TENANT_RESET (R272). Starts a tenant reset. -/
  | xnTenantReset (mb : Fin 1028)
  /-- XN_TENANT_QUERY (R273). Returns a tenant's state, queues or policy. -/
  | xnTenantQuery (mb : Fin 1028)
  /-- XN_TENANT_SET (R274). Writes the selected parts of a tenant's entry. -/
  | xnTenantSet (mb : Fin 1028)
  /-- XN_KEY_INSTALL (R275). Fills a key slot from a blob or from KEY_DATA. -/
  | xnKeyInstall (mb : Fin 1028)
  /-- XN_KEY_RETIRE (R201). Moves an ACTIVE slot to RETIRING. -/
  | xnKeyRetire (mb : Fin 1028)
  /-- XN_KEY_QUERY (R277). Returns a slot descriptor. -/
  | xnKeyQuery (mb : Fin 1028)
  /-- XN_KEY_PIN (R125). Pins a slot into the pin store. `bad` lists the stored bytes of the slot that read wrong (R116). -/
  | xnKeyPin (mb : Fin 1028) (bad : List (Fin 80))
  /-- XN_KEY_UNPIN (R125). Releases a pin. -/
  | xnKeyUnpin (mb : Fin 1028)
  /-- XN_KEK_LOAD (R278). Loads a KEK from a DKK1 blob under a GTK. -/
  | xnKekLoad (mb : Fin 1028)
  /-- XN_KEK_QUERY (R279). Reports a KEK or GTK. -/
  | xnKekQuery (mb : Fin 1028)
  /-- XN_KEK_ERASE (R280). Erases a KEK slot with a vault erase record. -/
  | xnKekErase (mb : Fin 1028)
  /-- XN_KEY_QUOTA (R281). Sets or queries a tenant's key quotas. -/
  | xnKeyQuota (mb : Fin 1028)
  /-- XN_LEASE_QUERY (R284). Reports Damson's state. -/
  | xnLeaseQuery (mb : Fin 1028)
  /-- XN_LOCAL_SLOT_SET (R285). Replaces LOCAL_SLOT and starts a slot change. -/
  | xnLocalSlotSet (mb : Fin 1028)
  /-- XN_DUAL_OPEN (R286). Opens a dual-control session. -/
  | xnDualOpen (mb : Fin 1028)
  /-- XN_SHARE_COMMIT (R287). Commits an officer's share or approval to the open session. -/
  | xnShareCommit (mb : Fin 1028) (ok : Bool)
  /-- XN_DUAL_CANCEL (R288). Cancels the open session. -/
  | xnDualCancel (mb : Fin 1028)
  /-- XN_DUAL_STATUS (R289). Reports the most recent session. -/
  | xnDualStatus (mb : Fin 1028)
  /-- XN_OFFICER_ENROL (R291). Installs an officer's authentication key. -/
  | xnOfficerEnrol (mb : Fin 1028)
  /-- XN_ENROL_ALLOW (R290). Opens an enrolment allowance for an UNENROLLED officer. -/
  | xnEnrolAllow (mb : Fin 1028)
  /-- XN_OFFICER_ZEROIZE (R268). An officer commands a HALT or ZEROIZE. -/
  | xnOfficerZeroize (mb : Fin 1028)
  /-- XN_REGION_SET (R293). Creates or modifies a TENANT region. -/
  | xnRegionSet (mb : Fin 1028)
  /-- XN_REGION_CLEAR (R294). Disables a region. -/
  | xnRegionClear (mb : Fin 1028)
  /-- XN_REGION_QUERY (R295). Returns a region entry. -/
  | xnRegionQuery (mb : Fin 1028)
  /-- XN_SWEEP_CTL (R296). Pauses or resumes a sweep. -/
  | xnSweepCtl (mb : Fin 1028)
  /-- XN_LKEY_INSTALL (R297). Installs a line key from a blob. -/
  | xnLkeyInstall (mb : Fin 1028)
  /-- XN_LKEY_RETIRE (R298). Retires a line key entry. -/
  | xnLkeyRetire (mb : Fin 1028)
  /-- XN_LKEY_QUERY (R299). Returns a line key descriptor. -/
  | xnLkeyQuery (mb : Fin 1028)
  /-- XN_RANGE_ARM (R300). Defines a live range. -/
  | xnRangeArm (mb : Fin 1028)
  /-- XN_RANGE_START (R301). Starts a live range. -/
  | xnRangeStart (mb : Fin 1028)
  /-- XN_RANGE_PAUSE (R301). Pauses a live range. -/
  | xnRangePause (mb : Fin 1028)
  /-- XN_RANGE_RESUME (R301). Resumes a live range. -/
  | xnRangeResume (mb : Fin 1028)
  /-- XN_RANGE_ABORT (R212). Aborts a live range. -/
  | xnRangeAbort (mb : Fin 1028)
  /-- XN_RANGE_QUERY (R301). Reports a live range. -/
  | xnRangeQuery (mb : Fin 1028)
  /-- XN_REGION_REKEY (R302). Starts, pauses, resumes or aborts a line rekey job. -/
  | xnRegionRekey (mb : Fin 1028)
  /-- XN_PROFILE_SET (R303). Loads a stripe profile. -/
  | xnProfileSet (mb : Fin 1028)
  /-- XN_PROFILE_CLEAR (R303). Removes a stripe profile. -/
  | xnProfileClear (mb : Fin 1028)
  /-- XN_PROFILE_QUERY (R303). Reports a stripe profile. -/
  | xnProfileQuery (mb : Fin 1028)
  /-- XN_PATTERN_LOAD (R304). Computes and loads an erasure pattern entry. -/
  | xnPatternLoad (mb : Fin 1028)
  /-- XN_PATTERN_CLEAR (R304). Invalidates an erasure pattern entry. -/
  | xnPatternClear (mb : Fin 1028)
  /-- XN_PATTERN_QUERY (R304). Returns an erasure pattern entry header. -/
  | xnPatternQuery (mb : Fin 1028)
  /-- XN_GROUP_STAGE (R305). Stages one part of a group descriptor. -/
  | xnGroupStage (mb : Fin 1028)
  /-- XN_GROUP_COMMIT (R306). Commits the staged group descriptor. -/
  | xnGroupCommit (mb : Fin 1028)
  /-- XN_GROUP_QUERY (R307). Reports the group state. -/
  | xnGroupQuery (mb : Fin 1028)
  /-- XN_KEK_EXPORT (R308). Wraps a KEK under the current GTK into BLOB_OUT. -/
  | xnKekExport (mb : Fin 1028)
  /-- XN_GROUP_LEAVE (R309). Leaves the group. -/
  | xnGroupLeave (mb : Fin 1028)
  /-- XN_LOG_STATUS (R310). Reports the event log status. -/
  | xnLogStatus (mb : Fin 1028)
  /-- XN_PIP_READ (R311). Reads or searches for a Pip. -/
  | xnPipRead (mb : Fin 1028)
  /-- XN_TIME_MARK (R312). Records EV_TIME_MARK. -/
  | xnTimeMark (mb : Fin 1028)
  /-- XN_LOG_FLUSH (R313). Writes every unflushed Pip to flash. -/
  | xnLogFlush (mb : Fin 1028)
  /-- XN_FAULT_QUERY (R314). Reports a fault source. -/
  | xnFaultQuery (mb : Fin 1028)
  /-- XN_FAULT_SEVERITY (R315). Sets a source's severity. -/
  | xnFaultSeverity (mb : Fin 1028)
  /-- XN_UNIT_QUERY (R316). Reports a unit's state. -/
  | xnUnitQuery (mb : Fin 1028)
  /-- XN_UNIT_FENCE (R317). Fences a unit. -/
  | xnUnitFence (mb : Fin 1028)
  /-- XN_UNIT_REVIVE (R317). Returns a fenced unit to service. -/
  | xnUnitRevive (mb : Fin 1028) (pass : Bool)
  /-- XN_FAULT_CTL (R318). Sets SETTLE and REPLACE_LEVEL. -/
  | xnFaultCtl (mb : Fin 1028)
  /-- XN_FW_QUERY (R325). Reports the firmware and settings slots. -/
  | xnFwQuery (mb : Fin 1028)
  /-- XN_STAGE_OPEN (R320). Opens a staging session and erases its target. -/
  | xnStageOpen (mb : Fin 1028)
  /-- XN_STAGE_WRITE (R321). Programs the staging window contents to flash. -/
  | xnStageWrite (mb : Fin 1028)
  /-- XN_STAGE_CLOSE (R322). Verifies or cancels the staged target. -/
  | xnStageClose (mb : Fin 1028)
  /-- XN_FW_ACTIVATE (R323). Activates a verified image or settings copy. -/
  | xnFwActivate (mb : Fin 1028)
  /-- XN_SVN_COMMIT (R324). Advances the OTP security-version counter. -/
  | xnSvnCommit (mb : Fin 1028) (ok : Bool)
  /-- ROW_IDLE_EXPIRY (R172). No message of an open, not fully claimed ENCODE row is admitted for ROW_IDLE, so the row is discarded and its closing request, if any, ends. -/
  | rowIdleExpiry (p : Fin 64) (row : RowId)
  /-- FLASH_OPERATION_TIMEOUT (R421). A flash operation takes more than twice its limit of Table 19.1, so FK_FLASH is raised and the device leaves service. -/
  | flashOperationTimeout (d : Fin 2)
  /-- AON_SUPPLY_LOSS (R474). The always-on supply fails, and the mesh, tamper sampling, lease shadow, TRIPPED latches and evidence latch stop and are lost. -/
  | aonSupplyLoss
  /-- LINE_READ_REQUEST_TAKEN (R175). The controller takes a read request on MQ with MQ_READY, which frees the line port queue and lets an overlapping line rekey window open. -/
  | lineReadRequestTaken (p : Fin 32) (lane : Fin 2) (met : LineMeets)
  /-- UNDEFINED_OPCODE (R246). Quince starts a command whose OPCODE is undefined and answers it with ST_BAD_OPCODE, or with an earlier check's status. -/
  | undefinedOpcode (mb : Fin 1028)
  /-- RNG_STALL_EXPIRY (R337). An RNG_DATA read stalled on an unseeded unit reaches RNG_STALL_MAX and ends in an error response, which frees the control port. -/
  | rngStallExpiry
deriving DecidableEq, Repr

end Sys2Proof
end

