-- ==== Sys2Proof/Machine/Bytes.lean ====
section
/-! DEFINITION. Byte order, bit fields, ceilings and the two CRCs (00_scope.md R9; R39, 02_stream_ports.md; Table 5.4,
05_keys.md). -/

namespace Sys2Proof.Machine

/-- Round-up division. -/
def ceilDiv (a b : Nat) : Nat := (a + b - 1) / b

/-- The `n` low bytes of `v`, least significant first (R9). -/
def toLE : Nat → Nat → List Byte
  | 0, _ => []
  | n + 1, v => BitVec.ofNat 8 v :: toLE n (v / 256)

/-- The number a little-endian byte string spells (R9). -/
def ofLE : List Byte → Nat
  | [] => 0
  | b :: bs => b.toNat + 256 * ofLE bs

/-- The `n` low bytes of `v`, most significant first. -/
def toBE (n v : Nat) : List Byte := (toLE n v).reverse

/-- The number a big-endian byte string spells. -/
def ofBE (bs : List Byte) : Nat := ofLE bs.reverse

/-- Bits `lo + w - 1 : lo` of `v`. -/
def bits (v lo w : Nat) : Nat := (v >>> lo) % 2 ^ w

/-- A field of `w` bits placed at bit `lo`. -/
def field (lo w v : Nat) : Nat := (v % 2 ^ w) <<< lo

/-- `n` bytes at byte offset `off` of a little-endian word (R259, 12_commands_keys.md). -/
def bytesAt (v off n : Nat) : Nat := bits v (8 * off) (8 * n)

/-- A value of `n` bytes placed at byte offset `off`. -/
def putAt (off n v : Nat) : Nat := field (8 * off) (8 * n) v

/-- Every bit of `n` bytes at byte offset `off`. -/
def maskAt (off n : Nat) : Nat := (2 ^ (8 * n) - 1) <<< (8 * off)

/-- Byte-wise exclusive or. -/
def xorBytes (a b : List Byte) : List Byte := List.zipWith (· ^^^ ·) a b

/-- `n` zero bytes. -/
def zeros (n : Nat) : List Byte := List.replicate n 0#8

/-- The string cut or zero-filled to exactly `n` bytes. -/
def fitBytes (n : Nat) (bs : List Byte) : List Byte := (bs ++ zeros (n - bs.length)).take n

/-- Consecutive pieces of `n` bytes; the last may be shorter. -/
def chunks (n : Nat) (bs : List Byte) : List (List Byte) :=
  (List.range (ceilDiv bs.length n)).map fun i => (bs.drop (n * i)).take n

/-- One bit of the CRC-16 of R39: polynomial 0x1021, most significant bit first. -/
def crc16Bit (crc : BitVec 16) (b : Bool) : BitVec 16 :=
  let top := crc.getLsbD 15 != b
  if top then (crc <<< 1) ^^^ 0x1021#16 else crc <<< 1

/-- CRC-16 of R39 (02_stream_ports.md): initial value 0xFFFF, no reflection, no final XOR. -/
def crc16 (bs : List Byte) : BitVec 16 :=
  bs.foldl (fun crc b => [7, 6, 5, 4, 3, 2, 1, 0].foldl (fun c i => crc16Bit c (b.getLsbD i)) crc) 0xFFFF#16

/-- One byte of the reflected CRC-32. -/
def crc32Byte (crc : BitVec 32) (b : Byte) : BitVec 32 :=
  (List.range 8).foldl
    (fun c _ => if c.getLsbD 0 then (c >>> 1) ^^^ 0xEDB88320#32 else c >>> 1)
    (crc ^^^ b.setWidth 32)

/-- CRC-32 of Table 5.4 (05_keys.md): IEEE 802.3 polynomial, reflected, initial and final XOR 0xFFFF_FFFF. -/
def crc32 (bs : List Byte) : BitVec 32 :=
  bs.foldl crc32Byte 0xFFFFFFFF#32 ^^^ 0xFFFFFFFF#32

/-- The bytes of a bit vector, byte i from bits 8i+7:8i. -/
def bvBytes {w : Nat} (n : Nat) (v : BitVec w) : List Byte := toLE n v.toNat

/-- Saturating increment of a counter of `w` bits. -/
def satInc (w n : Nat) : Nat := if n + 1 < 2 ^ w then n + 1 else 2 ^ w - 1

/-- Saturating addition of a counter of `w` bits. -/
def satAdd (w n k : Nat) : Nat := if n + k < 2 ^ w then n + k else 2 ^ w - 1

end Sys2Proof.Machine
end

