-- ==== Sys2Proof/Machine/Coder.lean ====
section
/-! DEFINITION. The arithmetic of the coder (07_shards.md) and of the line MAC (08_lines.md). -/

namespace Sys2Proof.Machine

/-- Multiplication by x in GF(2^8) modulo 0x11D (R157). -/
def gf8Double (b : Byte) : Byte := if b.getLsbD 7 then (b <<< 1) ^^^ 0x1D#8 else b <<< 1

/-- Multiplication in GF(2^8) modulo 0x11D (R157). -/
def gf8Mul (a b : Byte) : Byte :=
  ((List.range 8).foldl (fun (acc : Byte × Byte) i =>
    (if b.getLsbD i then acc.1 ^^^ acc.2 else acc.1, gf8Double acc.2)) (0#8, a)).1

/-- The inverse in GF(2^8), as the 254th power; zero for zero. -/
def gf8Inv (a : Byte) : Byte :=
  let a2 := gf8Mul a a
  let a4 := gf8Mul a2 a2
  let a8 := gf8Mul a4 a4
  let a16 := gf8Mul a8 a8
  let a32 := gf8Mul a16 a16
  let a64 := gf8Mul a32 a32
  let a128 := gf8Mul a64 a64
  gf8Mul a2 (gf8Mul a4 (gf8Mul a8 (gf8Mul a16 (gf8Mul a32 (gf8Mul a64 a128)))))

/-- Coding matrix element C[i][j] = (x_i ⊕ y_j)^−1 with x_i = k + i and y_j = j (R157). -/
def cauchy (k i j : Nat) : Byte := gf8Inv (BitVec.ofNat 8 (k + i) ^^^ BitVec.ofNat 8 j)

/-- The generator row of a position: the unit vector of a data position, row i of C for parity k + i (R166). -/
def generatorRow (k p : Nat) : List Byte :=
  if p < k then (List.range k).map fun j => if j = p then 1#8 else 0#8
  else (List.range k).map fun j => cauchy k (p - k) j

/-- A row scaled by a constant. -/
def rowScale (c : Byte) (r : List Byte) : List Byte := r.map (gf8Mul c)

/-- One column of Gauss–Jordan elimination over rows that hold a matrix and its companion. -/
def eliminate (rows : List (List Byte)) (col : Nat) : List (List Byte) :=
  match (rows.drop col).findIdx? (fun r => r.getD col 0#8 != 0#8) with
  | none => rows
  | some off =>
    let piv := rows.getD (col + off) []
    let rows := (rows.set (col + off) (rows.getD col [])).set col piv
    let piv := rowScale (gf8Inv (piv.getD col 0#8)) piv
    rows.zipIdx.map fun ri =>
      if ri.2 = col then piv else xorBytes ri.1 (rowScale (ri.1.getD col 0#8) piv)

/-- The inverse of a k × k matrix, by elimination of [A | I]. -/
def matInv (k : Nat) (a : List (List Byte)) : List (List Byte) :=
  let aug := a.zipIdx.map fun ri => ri.1 ++ (List.range k).map fun j => if j = ri.2 then 1#8 else 0#8
  ((List.range k).foldl eliminate aug).map (·.drop k)

/-- A row vector times a matrix. -/
def rowTimes (k : Nat) (r : List Byte) (m : List (List Byte)) : List Byte :=
  (List.zip r m).foldl (fun acc cm => xorBytes acc (rowScale cm.1 cm.2)) (zeros k)

/-- The positions of a bit mask below `n`, ascending. -/
def maskPositions (n mask : Nat) : List Nat := (List.range n).filter fun p => mask.testBit p

/-- The read set (R166): the k lowest positions of the row that are not erased. -/
def readSet (k m erased : Nat) : List Nat := ((List.range (k + m)).filter fun p => !erased.testBit p).take k

/-- The mask of a list of positions. -/
def positionsMask (ps : List Nat) : Nat := ps.foldl (fun a p => a ||| (1 <<< p)) 0

/-- The coefficients R[q][s] of an erasure pattern entry, one row for each erased position (R166). -/
def patternCoefs (k m erased : Nat) : List (List Byte) :=
  let inv := matInv k ((readSet k m erased).map (generatorRow k))
  (maskPositions (k + m) erased).map fun q => rowTimes k (generatorRow k q) inv

/-- The check column coefficients of a list of coefficient rows (R365): the sum over the rows. -/
def checkColumn (k : Nat) (rows : List (List Byte)) : List Byte := rows.foldl xorBytes (zeros k)

/-- The check coefficients w_j of an ENCODE of k data and m parity units (R365). -/
def encodeChecks (k m : Nat) : List Byte :=
  checkColumn k ((List.range m).map fun i => (List.range k).map fun j => cauchy k i j)

/-- What one byte lane of a Currant multiplies a flit's byte `y` by: the coefficients of its parity cells and `w`, that of
its check cell (R365). -/
structure LaneCells where
  /-- The parity cells' coefficients. -/
  cells : List Byte
  /-- The check coefficient. -/
  w : Byte
  /-- The byte of the flit. -/
  y : Byte
deriving DecidableEq, Repr

/-- The XOR of the products of a lane's parity cells, `e` the error with which they came out, is not w · Y (R365). -/
def LaneCells.disagrees (l : LaneCells) (e : Byte) : Bool :=
  l.cells.foldl (fun acc c => acc ^^^ gf8Mul c l.y) e != gf8Mul l.w l.y

/-- The first lane that disagrees, each lane's error given by `err` (R366). -/
def firstDisagreeing (err : Nat → Byte) (ls : List LaneCells) : Option Nat :=
  ls.zipIdx.findSome? fun l => if l.1.disagrees (err l.2) then some l.2 else none

/-- Add one scaled piece of a unit into an accumulator at a byte offset (R158). -/
def accAdd (c : Byte) (off : Nat) (piece acc : List Byte) : List Byte :=
  acc.take off ++ xorBytes (acc.drop off) (fitBytes (acc.length - off) (rowScale c piece))

/-- Multiplication in GF(2^32) modulo x^32 + x^7 + x^3 + x^2 + 1 (R187). -/
def gf32Mul (a b : BitVec 32) : BitVec 32 :=
  ((List.range 32).foldl (fun (acc : BitVec 32 × BitVec 32) i =>
    (if b.getLsbD i then acc.1 ^^^ acc.2 else acc.1,
     if acc.2.getLsbD 31 then (acc.2 <<< 1) ^^^ 0x8D#32 else acc.2 <<< 1)) (0#32, a)).1

/-- The line MAC over 64 bytes of ciphertext (R187). -/
def lineMac (hk m : BitVec 32) (c : List Byte) : BitVec 32 :=
  ((chunks 4 c).foldl (fun h w => gf32Mul (h ^^^ BitVec.ofNat 32 (ofLE w)) hk) 0#32) ^^^ m

end Sys2Proof.Machine
end

