-- ==== Sys2Proof/Config.lean ====
section
/-! DEFINITION. What one device fixes and the manual does not give: opaque constants with no value. Nothing proved about
the model can rest on any of them. -/

namespace Sys2Proof.Config

/-- DEVICE_ID, "Per device" (Table 14.3, 14_registers.md). Free value; log entry 3. -/
opaque deviceId : BitVec 128

/-- STEPPING of the IDENTITY register (Table 14.3, 14_registers.md). Free value; log entry 3. -/
opaque stepping : BitVec 4

/-- Device secrets DS0 to DS3, "OTP, programmed at manufacture" (Table 5.1, R135, 05_keys.md). Free value; log entry 3. -/
opaque deviceSecret : Nat → BitVec 256

/-- Raw noise bits of a Sloe source (R398, 17_boundary.md): at a power-on, its n-th eight samples, the first in bit
0. Free value; log entry 4. -/
opaque sloeBits (powerOn source n : Nat) : BitVec 8

/-- Whether an ECDSA P-384 signature with SHA-384 (96 bytes, r then s) verifies for a public key (97 bytes) and a
message (R433, R437, R452). The manual names the standard and gives no computation. Free value; log entry 5. -/
opaque ecdsaP384Verify : List Byte → List Byte → List Byte → Bool

/-- Whether an ML-DSA-87 signature (4,627 bytes) verifies for a public key (2,592 bytes) and a message (R433, R437).
Free value; log entry 5. -/
opaque mldsa87Verify : List Byte → List Byte → List Byte → Bool

/-- Birmin's ECDSA P-384 public key in Quince's boot ROM (R433, 19_persistence.md). Free value; log entry 5. -/
opaque birminEcdsaKey : List Byte

/-- Birmin's ML-DSA-87 public key in Quince's boot ROM (R433, 19_persistence.md). Free value; log entry 5. -/
opaque birminMldsaKey : List Byte

/-- What a read returns where the manual states no value for it. Free value; log entry 7. -/
opaque freeWord : Nat → BitVec 64

/-- Whether the n-th OTP programming reads back as programmed (R393, R395, 17_boundary.md). Free value; log entry 20. -/
opaque otpReads : Nat → Bool

/-- CURRENT of XN_LEASE_QUERY while no lease is in use (Table 12.14, 12_commands_keys.md): the manual gives no value. Free
value; log entry 23. -/
opaque noLease : BitVec 48

/-- Whether a KEK that returns from the vault at boot, and that this device has not loaded itself, arrived in a DKK1 blob (SOURCE
and GROUP of R110, 05_keys.md): a vault record does not say. By the KEK's index; free value; log entry 24. -/
opaque kekWrapped : Nat → Bool

/-- The 16 check symbols of the Reed–Solomon code over GF(2^8) for 64 stored bytes (R116, 05_keys.md): the manual gives neither
the field polynomial nor the generator. Free value; log entry 130. -/
opaque symbolCode : BitVec 512 → BitVec 128

end Sys2Proof.Config
end

