-- ==== Sys2Proof/Machine/Aes.lean ====
section
/-! DEFINITION. AES (FIPS 197), the block cipher that 03_transforms.md, 05_keys.md, 08_lines.md and 17_boundary.md name.
The standard's own definition is taken from outside the manual: PRESUMED, log entry 2. -/

namespace Sys2Proof.Machine

/-- The S-box as one number: byte i of it is the substitute of i. -/
def sboxBits : Nat := 0x16bb54b00f2d99416842e6bf0d89a18cdf2855cee9871e9b948ed9691198f8e19e1dc186b95735610ef6034866b53e708a8bbd4b1f74dde8c6b4a61c2e2578ba08ae7a65eaf4566ca94ed58d6d37c8e779e4959162acd3c25c2406490a3a32e0db0b5ede14b8ee4688902a22dc4f816073195d643d7ea7c41744975fec130ccdd2f3ff1021dab6bcf5389d928f40a351a89f3c507f02f94585334d43fbaaefd0cf584c4a39becb6a5bb1fc20ed00d153842fe329b3d63b52a05a6e1b1a2c830975b227ebe28012079a059618c323c7041531d871f1e5a534ccf73f362693fdb7c072a49cafa2d4adf04759fa7dc982ca76abd7fe2b670130c56f6bf27b777c63

/-- The inverse S-box, in the same form. -/
def invSboxBits : Nat := 0x7d0c2155631469e126d677ba7e042b17619953833cbbebc8b0f52aae4d3be0a0ef9cc9939f7ae52d0d4ab519a97f51605fec8027591012b131c7078833a8dd1ff45acd78fec0db9a2079d2c64b3e56fc1bbe18aa0e62b76f89c5291d711af1476edf751ce837f9e28535ade72274ac9673e6b4f0cecff297eadc674f4111913a6b8a130103bdafc1020f3fca8f1e2cd00645b3b80558e4f70ad3bc8c00abd890849d8da75746155edab9edfd5048706c92b6655dcc5ca4d41698688664f6f87225d18b6d49a25b76b224d92866a12e084ec3fa420b954cee3d23c2a632947b54cbe9dec444438e3487ff2f9b8239e37cfbd7f3819ea340bf38a53630d56a0952

/-- SubBytes of one byte. -/
def subByte (b : Byte) : Byte := BitVec.ofNat 8 (sboxBits >>> (8 * b.toNat))

/-- InvSubBytes of one byte. -/
def invSubByte (b : Byte) : Byte := BitVec.ofNat 8 (invSboxBits >>> (8 * b.toNat))

/-- Multiplication by x in GF(2^8) modulo 0x11B. -/
def xtime (b : Byte) : Byte := if b.getLsbD 7 then (b <<< 1) ^^^ 0x1B#8 else b <<< 1

/-- Pick the listed positions of a block. -/
def permute (idx : List Nat) (bs : List Byte) : List Byte := idx.map fun i => bs.getD i 0#8

/-- ShiftRows on a block held column by column. -/
def shiftRows : List Byte → List Byte :=
  permute [0, 5, 10, 15, 4, 9, 14, 3, 8, 13, 2, 7, 12, 1, 6, 11]

/-- InvShiftRows. -/
def invShiftRows : List Byte → List Byte :=
  permute [0, 13, 10, 7, 4, 1, 14, 11, 8, 5, 2, 15, 12, 9, 6, 3]

/-- One byte of MixColumns: 02·a ⊕ 03·b ⊕ c ⊕ d. -/
def mixByte (a b c d : Byte) : Byte := xtime a ^^^ (xtime b ^^^ b) ^^^ c ^^^ d

/-- MixColumns of one column. -/
def mixColumn (col : List Byte) : List Byte :=
  match col with
  | [a, b, c, d] => [mixByte a b c d, mixByte b c d a, mixByte c d a b, mixByte d a b c]
  | _ => []

/-- MixColumns. -/
def mixColumns (bs : List Byte) : List Byte := (chunks 4 bs).flatMap mixColumn

/-- InvMixColumns of one column: 0E·a ⊕ 0B·b ⊕ 0D·c ⊕ 09·d and its rotations. The matrix is that of MixColumns after
04·(a ⊕ c) is added to a and c, and 04·(b ⊕ d) to b and d. -/
def invMixColumn (col : List Byte) : List Byte :=
  match col with
  | [a, b, c, d] =>
    let u := xtime (xtime (a ^^^ c))
    let v := xtime (xtime (b ^^^ d))
    mixColumn [a ^^^ u, b ^^^ v, c ^^^ u, d ^^^ v]
  | _ => []

/-- InvMixColumns. -/
def invMixColumns (bs : List Byte) : List Byte := (chunks 4 bs).flatMap invMixColumn

/-- The round constants by index from 1. -/
def rcon (i : Nat) : Byte := (List.range (i - 1)).foldl (fun r _ => xtime r) 1#8

/-- One word of the key schedule. `acc` holds the words so far, newest first. -/
def expandStep (nk : Nat) (acc : List (List Byte)) (i : Nat) : List (List Byte) :=
  let prev := acc.headD []
  let temp :=
    if i % nk = 0 then
      xorBytes ((permute [1, 2, 3, 0] prev).map subByte) [rcon (i / nk), 0#8, 0#8, 0#8]
    else if nk > 6 ∧ i % nk = 4 then prev.map subByte
    else prev
  xorBytes (acc.getD (nk - 1) []) temp :: acc

/-- The round keys of a 16- or 32-byte key, first to last, 16 bytes each. -/
def roundKeys (key : List Byte) : List (List Byte) :=
  let nk := key.length / 4
  let first := (chunks 4 key).reverse
  let words := ((List.range (4 * (nk + 7) - nk)).foldl (fun acc i => expandStep nk acc (i + nk)) first).reverse
  chunks 16 words.flatten

/-- One middle round of encryption. -/
def aesRound (st rk : List Byte) : List Byte := xorBytes (mixColumns (shiftRows (st.map subByte))) rk

/-- AES encryption of one 16-byte block under a 16- or 32-byte key. -/
def aesEnc (key blk : List Byte) : List Byte :=
  let rks := roundKeys key
  let st := (rks.drop 1).dropLast.foldl aesRound (xorBytes blk (rks.headD []))
  xorBytes (shiftRows (st.map subByte)) (rks.getLastD [])

/-- One middle round of decryption. -/
def aesInvRound (st rk : List Byte) : List Byte :=
  invMixColumns (xorBytes ((invShiftRows st).map invSubByte) rk)

/-- AES decryption of one 16-byte block under a 16- or 32-byte key. -/
def aesDec (key blk : List Byte) : List Byte :=
  let rks := (roundKeys key).reverse
  let st := (rks.drop 1).dropLast.foldl aesInvRound (xorBytes blk (rks.headD []))
  xorBytes ((invShiftRows st).map invSubByte) (rks.getLastD [])

end Sys2Proof.Machine
end

