-- ==== Sys2Proof/Machine/Sha.lean ====
section
/-! DEFINITION. SHA-384 (FIPS 180-4) and HMAC-SHA-384 (FIPS 198-1), and the check values of R121 (05_keys.md).
The standards' definitions are taken from outside the manual: PRESUMED, log entry 2. -/

namespace Sys2Proof.Machine

/-- The round constants of SHA-384 as one number, word t at bits 64t: the fractions of the cube roots of the first eighty
primes. -/
def shaKBits : Nat := 0x6c44198c4a4758175fcb6fab3ad6faec597f299cfc657e2a4cc5d4becb3e42b6431d67c49c100d4c3c9ebe0a15c9bebc32caab7b40c7249328db77f523047d841b710b35131c471b113f9804bef90dae0a637dc5a2c898a606f067aa72176fbaf57d4f7fee6ed178eada7dd6cde0eb1ed186b8c721c0c207ca273eceea26619cc67178f2e372532bbef9a3f7b2c67915a4506cebde82bde990befffa23631e288cc702081a6439ec84c87814a1f0ab7278a5636f43172f60748f82ee5defb2fc682e6ff3d6b2b8a35b9cca4f7763e3734ed8aa4ae3418acb391c0cb3c5c95a6334b0bcb5e19b48a82748774cdf8eeb991e376c085141ab5319a4c116b8d2d0c8106aa07032bbd1b8f40e35855771202ad69906245565a910d192e819d6ef5218c76c51a30654be30c24b8b70d0f89791a81a664bbc423001a2bfe8a14cf1036492722c851482353b81c2c92e47edaee6766a0abb3c77b2a8650a73548baf63de53380d139d95b3df4d2c6dfc5ac42aed2e1b21385c26c92627b70a8546d22ffc142929670a0e6e7006ca6351e003826fd5a79147930aa725c6e00bf33da88fc2bf597fc7beef0ee4b00327c898fb213fa831c66d2db43210983e5152ee66dfab76f988da831153b55cb0a9dcbd41fbd44a7484aa6ea6e4832de92c6f592b0275240ca1cc77ac9c650fc19dc68b8cd5b5efbe4786384f25e3e49b69c19ef14ad2c19bf174cf6926949bdc06a725c7123580deb1fe3b1696b172be5d74f27b896f550c7dc3d5ffb4e2243185be4ee4b28c12835b0145706fbed807aa98a3030242ab1c5ed5da6d8118923f82a4af194f9b59f111f1b605d0193956c25bf348b538e9b5dba58189dbbcb5c0fbcfec4d3b2f7137449123ef65cd428a2f98d728ae22

/-- The initial hash value of SHA-384, its words in the same form. -/
def shaInitBits : Nat := 0x47b5481dbefa4fa4db0c2e0d64f98fa78eb44a876858151167332667ffc00b31152fecd8f70e59399159015a3070dd17629a292a367cd507cbbb9d5dc1059ed8

/-- Word t of a number that packs words. -/
def wordAt (n t : Nat) : BitVec 64 := BitVec.ofNat 64 (n >>> (64 * t))

/-- Two rotations of a word and a third term, added bit by bit: each of the four sigma functions. -/
def twoTurns (x : BitVec 64) (i j : Nat) (third : BitVec 64) : BitVec 64 := x.rotateRight i ^^^ x.rotateRight j ^^^ third

/-- The schedule word that follows sixteen, which are given oldest first. -/
def shaNext (win : List (BitVec 64)) : BitVec 64 :=
  let near := win.getD 14 0
  let far := win.getD 1 0
  win.getD 0 0 + win.getD 9 0 + twoTurns far 1 8 (far >>> 7) + twoTurns near 19 61 (near >>> 6)

/-- Round t: the eight working variables in `v`, and the window of sixteen schedule words, whose oldest the round uses. -/
def shaTurn (v win : List (BitVec 64)) (t : Nat) : List (BitVec 64) × List (BitVec 64) :=
  let at0 := v.getD 0 0
  let at4 := v.getD 4 0
  let choose := (v.getD 5 0 &&& at4) ||| (v.getD 6 0 &&& ~~~at4)
  let most := (at0 &&& (v.getD 1 0 ||| v.getD 2 0)) ||| (v.getD 1 0 &&& v.getD 2 0)
  let low := v.getD 7 0 + choose + wordAt shaKBits t + win.getD 0 0 + twoTurns at4 14 18 (at4.rotateRight 41)
  let high := most + twoTurns at0 28 34 (at0.rotateRight 39)
  ((low + high) :: v.take 3 ++ (v.getD 3 0 + low) :: (v.drop 4).take 3, win.drop 1 ++ [shaNext win])

/-- The compression of one block of 128 bytes into the hash value. -/
def shaBlock (h : List (BitVec 64)) (blk : List Byte) : List (BitVec 64) :=
  let win := (chunks 8 blk).map fun b => BitVec.ofNat 64 (ofBE b)
  let r := (List.range 80).foldl (fun s t => shaTurn s.1 s.2 t) (h, win)
  List.zipWith (· + ·) h r.1

/-- Message padding of SHA-384. -/
def shaPad (m : List Byte) : List Byte :=
  m ++ [0x80#8] ++ zeros ((239 - m.length % 128) % 128) ++ toBE 16 (8 * m.length)

/-- SHA-384, 48 bytes. -/
def sha384 (m : List Byte) : List Byte :=
  (((chunks 128 (shaPad m)).foldl shaBlock ((List.range 8).map (wordAt shaInitBits))).flatMap fun w => toBE 8 w.toNat).take 48

/-- HMAC with SHA-384. -/
def hmac384 (key m : List Byte) : List Byte :=
  let k := fitBytes 128 (if key.length > 128 then sha384 key else key)
  sha384 (k.map (· ^^^ 0x5C#8) ++ sha384 (k.map (· ^^^ 0x36#8) ++ m))

/-- KCV of a key string (R121): the first 3 bytes of HMAC-SHA-384 over "DOLHA-KCV". -/
def kcv (key : List Byte) : List Byte :=
  (hmac384 key [0x44, 0x4F, 0x4C, 0x48, 0x41, 0x2D, 0x4B, 0x43, 0x56]).take 3

/-- SCV of a share (R121): the first 3 bytes of HMAC-SHA-384 over "DOLHA-SCV". -/
def scv (share : List Byte) : List Byte :=
  (hmac384 share [0x44, 0x4F, 0x4C, 0x48, 0x41, 0x2D, 0x53, 0x43, 0x56]).take 3

end Sys2Proof.Machine
end

