-- ==== Sys2Proof/Machine/Modes.lean ====
section
/-! DEFINITION. The published constructions over AES that the manual names: AES-CMAC, the SP 800-108 KDF, AES-KW, XTS with
ciphertext stealing, GHASH, GCM and GMAC, the conditioner and the CTR_DRBG (03_transforms.md, 05_keys.md, 17_boundary.md).
Where a rule spells the construction out, the rule is cited; the rest is the named standard's: PRESUMED, log entry 2. -/

namespace Sys2Proof.Machine

/-! ## AES-CMAC and key derivation -/

/-- Doubling of a big-endian 128-bit string (SP 800-38B). -/
def cmacDouble (b : List Byte) : List Byte :=
  let v := ofBE b
  let w := (v <<< 1) % 2 ^ 128
  toBE 16 (if v ≥ 2 ^ 127 then w ^^^ 0x87 else w)

/-- AES-CMAC (SP 800-38B), 16 bytes. -/
def cmac (key m : List Byte) : List Byte :=
  let k1 := cmacDouble (aesEnc key (zeros 16))
  let k2 := cmacDouble k1
  let blocks := if m.isEmpty then [[]] else chunks 16 m
  let last := blocks.getLastD []
  let mlast := if last.length = 16 then xorBytes last k1 else xorBytes (fitBytes 16 (last ++ [0x80#8])) k2
  (blocks.dropLast ++ [mlast]).foldl (fun x b => aesEnc key (xorBytes x b)) (zeros 16)

/-- One PRF input of the counter-mode KDF (R62, R105): [i]32, label, 0x00, context, [L]32. -/
def kdfInput (i : Nat) (label context : List Byte) (len : Nat) : List Byte :=
  toBE 4 i ++ label ++ [0#8] ++ context ++ toBE 4 len

/-- ASCII "DOLHA-TAG" (R62). -/
def labelTag : List Byte := [0x44, 0x4F, 0x4C, 0x48, 0x41, 0x2D, 0x54, 0x41, 0x47]
/-- ASCII "DOLHA-VAULT" (R105). -/
def labelVault : List Byte := [0x44, 0x4F, 0x4C, 0x48, 0x41, 0x2D, 0x56, 0x41, 0x55, 0x4C, 0x54]
/-- ASCII "DOLHA-XPORT" (R105). -/
def labelXport : List Byte := [0x44, 0x4F, 0x4C, 0x48, 0x41, 0x2D, 0x58, 0x50, 0x4F, 0x52, 0x54]
/-- ASCII "DOLHA-ROOT" (R131). -/
def labelRoot : List Byte := [0x44, 0x4F, 0x4C, 0x48, 0x41, 0x2D, 0x52, 0x4F, 0x4F, 0x54]

/-- Hash subkey H and tag key K_E of a MODE 0x3 or 0x4 slot (R62): output 1, and output 2 followed by output 3. -/
def tagMaterial (k1 family : List Byte) : List Byte × List Byte :=
  let prf := fun i => cmac k1 (kdfInput i labelTag family 384)
  (prf 1, prf 2 ++ prf 3)

/-- VK or TK (R105): outputs 1 and 2 of the KDF keyed by the device secret. -/
def deriveDeviceKey (ds label deviceId : List Byte) : List Byte :=
  let prf := fun i => cmac ds (kdfInput i label deviceId 256)
  prf 1 ++ prf 2

/-- The root key of a dual-control session (R131): the first 256 bits of the KDF with HMAC-SHA-384 keyed by Z. -/
def deriveRootKey (z : List Byte) (purpose tenant kekSlot epoch : Nat) : List Byte :=
  (hmac384 z (toBE 4 1 ++ labelRoot ++ [0#8] ++ toLE 1 purpose ++ toLE 2 tenant ++ toLE 1 kekSlot ++ toLE 4 epoch
    ++ zeros 9 ++ toBE 4 256)).take 32

/-! ## AES-KW -/

/-- The default integrity check value (R109). -/
def kwIcv : List Byte := List.replicate 8 0xA6#8

/-- One step of AES-KW wrapping: A, the registers, and the step number t (SP 800-38F). -/
def kwWrapStep (kek : List Byte) (n : Nat) (st : List Byte × List (List Byte)) (t : Nat) :
    List Byte × List (List Byte) :=
  let i := (t - 1) % n
  let b := aesEnc kek (st.1 ++ st.2.getD i [])
  (toBE 8 (ofBE (b.take 8) ^^^ t), st.2.set i (b.drop 8))

/-- AES-KW wrapping of a plaintext of whole 8-byte words (R109). -/
def kwWrap (kek pt : List Byte) : List Byte :=
  let rs := chunks 8 pt
  let n := rs.length
  let out := (List.range (6 * n)).foldl (fun st j => kwWrapStep kek n st (j + 1)) (kwIcv, rs)
  out.1 ++ out.2.flatten

/-- One step of AES-KW unwrapping. -/
def kwUnwrapStep (kek : List Byte) (n : Nat) (st : List Byte × List (List Byte)) (t : Nat) :
    List Byte × List (List Byte) :=
  let i := (t - 1) % n
  let b := aesDec kek (toBE 8 (ofBE st.1 ^^^ t) ++ st.2.getD i [])
  (b.take 8, st.2.set i (b.drop 8))

/-- AES-KW unwrapping, or none where the integrity check fails (R109). -/
def kwUnwrap (kek ct : List Byte) : Option (List Byte) :=
  let rs := chunks 8 (ct.drop 8)
  let n := rs.length
  let out := (List.range (6 * n)).reverse.foldl (fun st j => kwUnwrapStep kek n st (j + 1)) (ct.take 8, rs)
  if out.1 = kwIcv then some out.2.flatten else none

/-! ## XTS -/

/-- DU(n): the 16-byte tweak value of data unit number n (R58). -/
def duBytes (n : Nat) : List Byte := toLE 16 n

/-- Multiplication of a tweak by α (R59): a left shift of the little-endian string, folded with 0x87. -/
def xtsAlpha (t : List Byte) : List Byte :=
  let v := ofLE t
  let w := (v <<< 1) % 2 ^ 128
  toLE 16 (if v ≥ 2 ^ 127 then w ^^^ 0x87 else w)

/-- T · α^j. -/
def xtsTweak (t : List Byte) (j : Nat) : List Byte := (List.range j).foldl (fun x _ => xtsAlpha x) t

/-- XTS encryption of one block with a tweak. -/
def xtsEncBlock (k1 tw p : List Byte) : List Byte := xorBytes (aesEnc k1 (xorBytes p tw)) tw

/-- XTS decryption of one block with a tweak. -/
def xtsDecBlock (k1 tw c : List Byte) : List Byte := xorBytes (aesDec k1 (xorBytes c tw)) tw

/-- The first `n` whole blocks of a unit, in order, block j under T · α^j. -/
def xtsBlocks (f : List Byte → List Byte → List Byte) (t : List Byte) (n : Nat) (data : List Byte) : List Byte :=
  (((List.range n).foldl (fun (acc : List Byte × List Byte × List (List Byte)) _ =>
    (xtsAlpha acc.1, acc.2.1.drop 16, f acc.1 (acc.2.1.take 16) :: acc.2.2)) (t, data, [])).2.2).reverse.flatten

/-- Encryption of one data unit with ciphertext stealing (R60). `t` is the encrypted tweak of the unit. -/
def xtsEncUnit (k1 t p : List Byte) : List Byte :=
  let m := p.length / 16
  let b := p.length % 16
  if b = 0 then xtsBlocks (xtsEncBlock k1) t m p
  else
    let head := xtsBlocks (xtsEncBlock k1) t (m - 1) p
    let cc := xtsEncBlock k1 (xtsTweak t (m - 1)) ((p.drop (16 * (m - 1))).take 16)
    let pp := p.drop (16 * m) ++ cc.drop b
    head ++ xtsEncBlock k1 (xtsTweak t m) pp ++ cc.take b

/-- Decryption of one data unit with ciphertext stealing (R60). -/
def xtsDecUnit (k1 t c : List Byte) : List Byte :=
  let m := c.length / 16
  let b := c.length % 16
  if b = 0 then xtsBlocks (xtsDecBlock k1) t m c
  else
    let head := xtsBlocks (xtsDecBlock k1) t (m - 1) c
    let pp := xtsDecBlock k1 (xtsTweak t m) ((c.drop (16 * (m - 1))).take 16)
    let cc := c.drop (16 * m) ++ pp.drop b
    head ++ xtsDecBlock k1 (xtsTweak t (m - 1)) cc ++ pp.take b

/-! ## GHASH, detached tags, GCM -/

/-- Multiplication in GF(2^128) with the bit order of SP 800-38D; blocks as big-endian numbers. -/
def ghashMul (x y : Nat) : Nat :=
  ((List.range 128).foldl (fun (acc : Nat × Nat) i =>
    (if x.testBit (127 - i) then acc.1 ^^^ acc.2 else acc.1,
     if acc.2.testBit 0 then (acc.2 >>> 1) ^^^ (0xE1 <<< 120) else acc.2 >>> 1)) (0, y)).1

/-- GHASH of a string of whole blocks (R70: the rows of sixteen fold to the same value). -/
def ghash (h : List Byte) (data : List Byte) : List Byte :=
  let hn := ofBE h
  toBE 16 ((chunks 16 data).foldl (fun acc b => ghashMul (acc ^^^ ofBE b) hn) 0)

/-- Zero padding to whole blocks. -/
def pad16 (bs : List Byte) : List Byte := bs ++ zeros ((16 - bs.length % 16) % 16)

/-- The GHASH input A, C, and the length block in bits (R63, R66). -/
def ghashInput (a c : List Byte) : List Byte :=
  pad16 a ++ pad16 c ++ toBE 8 (8 * a.length) ++ toBE 8 (8 * c.length)

/-- The detached tag of a data unit (R63). -/
def unitTag (h ke family : List Byte) (du : Nat) (c : List Byte) : List Byte :=
  aesEnc ke (ghash h (ghashInput (family ++ duBytes du) c))

/-- The counter block of payload block b (R66). -/
def gcmCounter (iv : List Byte) (b : Nat) : List Byte := iv ++ toBE 4 ((b + 2) % 2 ^ 32)

/-- GCM counter-mode transform of the data; the same in both directions. -/
def gcmCtr (key iv data : List Byte) : List Byte :=
  ((chunks 16 data).zipIdx.map fun cb => xorBytes cb.1 (aesEnc key (gcmCounter iv cb.2))).flatten

/-- The GCM tag over AAD and ciphertext (R66); with empty ciphertext, the GMAC tag (R68). -/
def gcmTag (key iv aad ct : List Byte) : List Byte :=
  let h := aesEnc key (zeros 16)
  xorBytes (ghash h (ghashInput aad ct)) (aesEnc key (iv ++ [0#8, 0#8, 0#8, 1#8]))

/-! ## The random unit -/

/-- Conditioning (R401): AES-256 CBC-MAC of 1,024 raw bits under the key 00 01 … 1F. -/
def condition (raw : List Byte) : List Byte :=
  (chunks 16 raw).foldl (fun x b => aesEnc (toLE 32 0x1f1e1d1c1b1a191817161514131211100f0e0d0c0b0a09080706050403020100)
    (xorBytes x b)) (zeros 16)

/-- CTR_DRBG update (SP 800-90A) on Key (32 bytes) and V (16 bytes) with 48 bytes of input. -/
def drbgUpdate (key v inp : List Byte) : List Byte × List Byte :=
  let n := ofBE v
  let t := xorBytes ((List.range 3).flatMap fun i => aesEnc key (toBE 16 ((n + i + 1) % 2 ^ 128))) inp
  (t.take 32, t.drop 32)

/-- CTR_DRBG generate of `n` bytes: the output and the new Key and V. -/
def drbgGenerate (key v : List Byte) (n : Nat) : List Byte × (List Byte × List Byte) :=
  let c := ofBE v
  let nb := ceilDiv n 16
  let out := (List.range nb).flatMap fun i => aesEnc key (toBE 16 ((c + i + 1) % 2 ^ 128))
  (out.take n, drbgUpdate key (toBE 16 ((c + nb) % 2 ^ 128)) (zeros 48))

end Sys2Proof.Machine
end

