-- ==== Sys2Proof/Machine/Operands.lean ====
section
/-! DEFINITION. The fields of sidebands, commands and descriptors, and the layouts of what leaves on the egress
(02_stream_ports.md, 05_keys.md, 11_mailboxes.md). -/

namespace Sys2Proof.Machine

/-! ### Status codes (Table 11.11, 11_mailboxes.md) -/

def stOk : Nat := 0x00
def stBusy : Nat := 0x01
def stBadOpcode : Nat := 0x02
def stBadField : Nat := 0x03
def stDenied : Nat := 0x04
def stNoResource : Nat := 0x05
def stInProgress : Nat := 0x0F
def stKeyEmpty : Nat := 0x10
def stKeyStale : Nat := 0x11
def stKeyOwner : Nat := 0x12
def stKeyRetiring : Nat := 0x13
def stAuthFail : Nat := 0x20
def stHdrCheck : Nat := 0x21
def stLenMismatch : Nat := 0x22
def stTimeout : Nat := 0x23
def stAborted : Nat := 0x24
def stGenBusy : Nat := 0x30
def stStateMoved : Nat := 0x31
def stGroupMismatch : Nat := 0x40
def stRngUnseeded : Nat := 0x50
def stInitPending : Nat := 0x51
def stDualPending : Nat := 0x60
def stHalted : Nat := 0xFE

/-! ### Ingress sideband (Table 2.4) -/

/-- A field of a sideband or other word. -/
def fld {w : Nat} (v : BitVec w) (lo n : Nat) : Nat := bits v.toNat lo n

def sbOp (sb : Sideband) : Nat := fld sb 0 4
def sbMode (sb : Sideband) : Nat := fld sb 4 4
def sbClass (sb : Sideband) : Nat := fld sb 8 2
def sbTenant (sb : Sideband) : Nat := fld sb 10 10
def sbQueue (sb : Sideband) : Nat := fld sb 20 4
def sbKeyidx (sb : Sideband) : Nat := fld sb 24 20
def sbKgen (sb : Sideband) : Nat := fld sb 44 8
def sbLen (sb : Sideband) : Nat := fld sb 52 24
def sbDunit (sb : Sideband) : Nat := fld sb 76 64

/-- KEYIDX and KGEN as the tail of a message rejected at check 19 or later names them (Table 2.8): both zero for REBUILD,
KGEN zero where KEYIDX is zero. -/
def sbNamed (sb : Sideband) : Nat × Nat :=
  if sbOp sb = 6 || sbKeyidx sb = 0 then (0, 0) else (sbKeyidx sb, sbKgen sb)

def sbAadlen (sb : Sideband) : Nat := fld sb 140 16
def sbStripe (sb : Sideband) : Nat := fld sb 156 16
def sbShard (sb : Sideband) : Nat := fld sb 172 5
def sbProfile (sb : Sideband) : Nat := fld sb 177 6
def sbCookie (sb : Sideband) : Nat := fld sb 183 48
def sbFlags (sb : Sideband) : Nat := fld sb 231 8
def sbHchk (sb : Sideband) : Nat := fld sb 240 16

/-- FLAGS.LOOKAHEAD, NO_HOLD and PIN_HINT (Table 2.5). -/
def sbLookahead (sb : Sideband) : Bool := (sbFlags sb).testBit 0
def sbNoHold (sb : Sideband) : Bool := (sbFlags sb).testBit 1
def sbPinHint (sb : Sideband) : Bool := (sbFlags sb).testBit 2

/-- Operation codes (R481, Table 2.14). -/
def opEncrypt : Nat := 1
def opDecrypt : Nat := 2
def opEncode : Nat := 3
def opDecode : Nat := 4
def opVerify : Nat := 5
def opRebuild : Nat := 6
def opBramble : Nat := 7

/-- HCHK of a 256-bit sideband (R39): the CRC-16 of its bytes 0 to 29. -/
def hchk (v : Nat) : Nat := (crc16 (toLE 30 v)).toNat

/-- ENCODE, DECODE and REBUILD. -/
def isCoding (op : Nat) : Bool := op = opEncode || op = opDecode || op = opRebuild

/-- XTS modes, and those with detached tags (Table 3.1). -/
def isXts (mode : Nat) : Bool := 1 ≤ mode && mode ≤ 4
def isTagged (mode : Nat) : Bool := mode = 3 || mode = 4
def isGcm (mode : Nat) : Bool := 5 ≤ mode && mode ≤ 7

/-- OP and MODE combinations of Table 2.11. -/
def opModeOk (op mode : Nat) : Bool :=
  if op = opEncrypt then 1 ≤ mode && mode ≤ 7
  else if op = opDecrypt then 1 ≤ mode && mode ≤ 6
  else if isCoding op then mode = 3 || mode = 4
  else if op = opVerify then 3 ≤ mode && mode ≤ 7
  else if op = opBramble then 1 ≤ mode && mode ≤ 4
  else false

/-- Flags allowed for an OP and MODE (R38, Table 2.5). -/
def flagsOk (op mode flags : Nat) : Bool :=
  (!flags.testBit 1 || op = opDecrypt || op = opDecode) && (!flags.testBit 0 || isXts mode)

/-- LEN and AADLEN limits of Table 2.11. -/
def lengthsOk (op mode len aad : Nat) : Bool :=
  let aadOk := aad = 0 || ((op = opEncrypt || op = opDecrypt || op = opVerify) && (mode = 5 || mode = 6))
  let lenOk :=
    if op = opEncode then 0 < len && len % 4096 = 0
    else if op = opDecode || op = opRebuild then 0 < len && len % 4112 = 0
    else if op = opBramble then 16 ≤ len
    else if isXts mode then 16 ≤ len
    else true
  aadOk && lenOk

/-- Data unit size in bytes of a USIZE code; 0 is the whole message (Table 5.5). -/
def unitBytes (usize : Nat) : Nat :=
  match usize with
  | 1 => 512
  | 2 => 4096
  | 3 => 8192
  | 4 => 16384
  | _ => 0

/-- Number of data units of `len` bytes under unit size `u` (R34). -/
def unitCount (len u : Nat) : Nat := if u = 0 then 1 else ceilDiv len u

/-- Payload length P of a request (R34, Table 2.2). -/
def payloadLen (op mode len aad u : Nat) : Nat :=
  if op = opDecode || op = opRebuild then len
  else if op = opEncrypt || op = opEncode then
    if mode = 5 || mode = 6 then aad + len else len
  else if isTagged mode then len + 16 * unitCount len u
  else if mode = 5 || mode = 6 then 32 + aad + len
  else if mode = 7 then 32 + len
  else len

/-- Flit count F of a payload (R34). -/
def flitCount (p : Nat) : Nat := max 1 (ceilDiv p 256)

/-- The operations a MODE allows, as OPS bits (R114). -/
def opsAllowed (mode : Nat) : Nat :=
  match mode with
  | 1 => 0x18
  | 2 => 0x18
  | 3 => 0x1F
  | 4 => 0x1F
  | 5 => 0x19
  | 6 => 0x19
  | 7 => 0x11
  | _ => 0

/-- The OPS bit an operation needs of a slot (Table 5.5); BRAMBLE_RETURN needs DECRYPT on the old slot. -/
def opsBit (op : Nat) : Nat :=
  if op = opEncrypt then 4
  else if op = opDecrypt || op = opBramble then 3
  else if op = opEncode then 2
  else if op = opDecode then 1
  else 0

/-- Key bytes a MODE uses (Table 3.1). -/
def keyBytesOf (mode : Nat) : Nat :=
  match mode with
  | 1 => 32
  | 2 => 64
  | 3 => 32
  | 4 => 64
  | 5 => 16
  | 6 => 32
  | 7 => 32
  | _ => 0

/-- K1 and K2 of an XTS key, K of another (Table 3.2). -/
def keyK1 (mode : Nat) (key : List Byte) : List Byte :=
  if mode = 1 || mode = 3 then key.take 16
  else if mode = 2 || mode = 4 then key.take 32
  else key.take (keyBytesOf mode)

def keyK2 (mode : Nat) (key : List Byte) : List Byte :=
  if mode = 1 || mode = 3 then (key.drop 16).take 16 else (key.drop 32).take 32

/-- AES rounds of a MODE (Table 4.4). -/
def roundsOf (mode : Nat) : Nat := if mode = 1 || mode = 3 || mode = 5 then 10 else 14

/-- A verdict exists for an operation and MODE (03_transforms.md, Verdicts). -/
def hasVerdict (op mode : Nat) : Bool :=
  op = opDecode ||
  ((op = opDecrypt || op = opVerify || op = opBramble) && isTagged mode) ||
  ((op = opDecrypt || op = opVerify) && isGcm mode)

/-- ENCRYPT under MODE 5 to 7 draws an IV (R136). -/
def drawsIv (op mode : Nat) : Bool := op = opEncrypt && isGcm mode

/-! ### Slot descriptors (Table 5.5) -/

def dState (d : BitVec 256) : Nat := fld d 125 3
def dTenant (d : BitVec 256) : Nat := fld d 115 10
def dKgen (d : BitVec 256) : Nat := fld d 107 8
def dMode (d : BitVec 256) : Nat := fld d 104 3
def dUsize (d : BitVec 256) : Nat := fld d 101 3
def dOps (d : BitVec 256) : Nat := fld d 96 5
def dGroup (d : BitVec 256) : Bool := d.getLsbD 95
def dPinned (d : BitVec 256) : Bool := d.getLsbD 94
def dBudget (d : BitVec 256) : Nat := fld d 52 24
def dUsage (d : BitVec 256) : Nat := fld d 0 52
def dFamily (d : BitVec 256) : BitVec 128 := d.extractLsb' 128 128

/-- Replace a field of a word. -/
def setFld {w : Nat} (v : BitVec w) (lo n x : Nat) : BitVec w :=
  let m := BitVec.ofNat w ((2 ^ n - 1) <<< lo)
  (v &&& ~~~m) ||| BitVec.ofNat w (field lo n x)

/-- Slot states (Table 5.6). -/
def ssEmpty : Nat := 0
def ssLoading : Nat := 1
def ssActive : Nat := 2
def ssRetiring : Nat := 3
def ssClearing : Nat := 4

/-- A slot descriptor from its fields (Table 5.5). -/
def mkDesc (state tenant kgen mode usize ops group clearsrc kekslot budget : Nat) (family : BitVec 128) : BitVec 256 :=
  BitVec.ofNat 256 (family.toNat <<< 128 ||| field 125 3 state ||| field 115 10 tenant ||| field 107 8 kgen |||
    field 104 3 mode ||| field 101 3 usize ||| field 96 5 ops ||| field 95 1 group ||| field 93 1 clearsrc |||
    field 89 4 kekslot ||| field 52 24 budget)

/-- Line key descriptor fields (Table 8.4). -/
def ldState (d : BitVec 128) : Nat := fld d 125 3
def ldTenant (d : BitVec 128) : Nat := fld d 115 10
def ldLgen (d : BitVec 128) : Nat := fld d 107 8
def ldMode (d : BitVec 128) : Nat := fld d 104 3
def ldVital (d : BitVec 128) : Bool := d.getLsbD 103
def ldBound (d : BitVec 128) : Bool := d.getLsbD 102
def ldBudget (d : BitVec 128) : Nat := fld d 52 24
def ldUsage (d : BitVec 128) : Nat := fld d 0 52

/-- Region entry fields (Table 8.2). -/
def rgBase (r : BitVec 256) : Nat := fld r 216 40
def rgLimit (r : BitVec 256) : Nat := fld r 176 40
def rgCkey (r : BitVec 256) : Nat := fld r 118 12
def rgNkey (r : BitVec 256) : Nat := fld r 106 12
def rgAval (r : BitVec 256) : Nat := fld r 94 12
def rgAmask (r : BitVec 256) : Nat := fld r 82 12
def rgTenant (r : BitVec 256) : Nat := fld r 72 10
def rgKind (r : BitVec 256) : Nat := fld r 70 2
def rgKeep (r : BitVec 256) : Bool := r.getLsbD 69
def rgRekey (r : BitVec 256) : Bool := r.getLsbD 68
def rgJob (r : BitVec 256) : Nat := fld r 58 8

/-- First and last line of a region (R178, R293: BASE × 64). -/
def rgFirst (r : BitVec 256) : Nat := rgBase r * 64
def rgLast (r : BitVec 256) : Nat := rgLimit r * 64 + 63

/-! ### Egress sidebands (Tables 2.6 to 2.8) -/

/-- PE_HSB (R40). OUTLEN keeps its low 24 bits (DESIGN CHOICE, log entry 125). KIND is 0 DATA, 1 PARITY, 2 STATUS, 3 ZERO_FILL, 4 BRAMBLE_OUT. -/
def mkHsb (sb : Sideband) (kind shard outlen : Nat) (last held hold : Bool) (iv : BitVec 96) : Sideband :=
  let ef := (if last then 4 else 0) + (if held then 2 else 0) + (if hold then 1 else 0)
  let body := field 0 4 (sbOp sb) ||| field 4 4 (sbMode sb) ||| field 8 2 (sbClass sb) |||
    field 10 10 (sbTenant sb) ||| field 20 4 (sbQueue sb) ||| field 24 8 kind ||| field 32 24 outlen |||
    field 56 96 iv.toNat ||| field 152 48 (sbCookie sb) ||| field 200 16 (sbStripe sb) ||| field 216 5 shard |||
    field 221 6 (sbProfile sb) ||| field 227 8 ef
  BitVec.ofNat 256 (body ||| field 240 16 (hchk body))

/-- PE_TSB (R42). KGEN is zero where KEYIDX is zero (Table 2.8). OUTLEN of the head and BYTES keep their low 24 bits (log
entry 125). -/
def mkTsb (status detail cookie bytes kgen keyidx epoch : Nat) : Sideband :=
  let body := field 0 8 status ||| field 8 8 detail ||| field 16 48 cookie ||| field 64 24 bytes |||
    field 88 8 (if keyidx = 0 then 0 else kgen) ||| field 96 20 keyidx ||| field 116 8 epoch
  BitVec.ofNat 256 (body ||| field 240 16 (hchk body))

/-! ### Commands and responses (Tables 11.4, 11.6) -/

/-- `n` bytes of a command at an offset. -/
def cb (c : CommandWord) (off n : Nat) : Nat := bytesAt c.toNat off n

def cOpcode (c : CommandWord) : Nat := cb c 0 2

/-- A response from its header fields and RESULT (bytes 0x10 to 0x3F as one number). -/
def mkResp (opcode ctag status detail job ccount result : Nat) : ResponseWord :=
  BitVec.ofNat 512 (putAt 0 2 opcode ||| putAt 2 2 ctag ||| putAt 4 1 status ||| putAt 5 1 detail ||| putAt 8 4 job |||
    putAt 12 4 ccount ||| putAt 16 48 result)

/-- A field of RESULT, given its offset in the response. -/
def rb (off n v : Nat) : Nat := putAt (off - 16) n v

end Sys2Proof.Machine
end

