-- ==== Sys2Proof/Machine/State.lean ====
section
/-! DEFINITION. Every piece of state of the block, as plain data, and its value at reset. A field's docstring gives its
meaning, its width where the manual gives one, the rule and chapter that name it, and its reset value. "Own" marks a field
that only this model needs. Arrays are sparse tables (`Tbl`) whose unlisted entries read as the default named. -/

namespace Sys2Proof.Machine

/-- The ways a step could stop with a fault. No meaning of this block does: every command has an effect in every state. -/
inductive Fault where
deriving DecidableEq, Repr

/-- The ways a command could be refused. -/
inductive Refusal where
  /-- Raised by `exec` for a command that has no meaning yet. Safe: nothing is claimed about it. -/
  | notModelled (mnemonic : String)
deriving DecidableEq, Repr

/-! ### Stream plane -/

/-- The slot that serves some units of a request (R204, R42). -/
structure KeyUse where
  /-- Key slot, 20 bits. R114 (05). -/
  slot : Nat := 0
  /-- Its generation, 8 bits. R117 (05). -/
  kgen : Nat := 0
  /-- Its MODE. R56 (03). -/
  mode : Nat := 0
  /-- Its data unit size U in bytes, 0 for whole message. Table 5.5 (05). -/
  unit : Nat := 0
  /-- Its FAMILY. R62 (03). -/
  family : BitVec 128 := 0
deriving DecidableEq, Repr

/-- Where the verdict of a request stands (R72, 03). -/
inductive Verdict where
  /-- No verdict, or its input is not complete. -/
  | pending
  /-- The last GHASH row and tag are complete: OK or the first failing unit. -/
  | computed (fail : Option Nat)
  /-- Final. -/
  | final (fail : Option Nat)
deriving DecidableEq, Repr

/-- An admitted request: one entry of the context store (R49, R21) with its reservations (R101). -/
structure Req where
  /-- Own: admission order on the port. -/
  rid : Nat := 0
  /-- Own: admission order over all ports, by which class-0 flits issue. R89 (04). -/
  order : Nat := 0
  /-- Context entry, 0–4,095. R49 (02). -/
  ctx : Nat := 0
  /-- The ingress sideband, 256 bits. R37 (02). -/
  sb : Sideband := 0
  /-- PI_CLASS. R31 (02). -/
  cls : Fin 4 := 0
  /-- Configuration generation of the admission. R222 (09). -/
  gen : Nat := 0
  /-- Tenant epoch of the admission. R230 (10). -/
  epoch : Nat := 0
  /-- Flit count F. R34 (02). -/
  flits : Nat := 0
  /-- Payload length P in bytes. R34 (02). -/
  payload : Nat := 0
  /-- Flits arrived. R51 (02). -/
  arrived : Nat := 0
  /-- Serving cluster. R86 (04). -/
  cluster : Nat := 0
  /-- The slots of the request's units, as runs of units. R204 (09). -/
  uses : List (Nat × KeyUse) := []
  /-- The new slot of a BRAMBLE_RETURN. R80 (03). -/
  newUse : Option KeyUse := none
  /-- Job of the window a BRAMBLE_RETURN answers. R207 (09). -/
  job : Option Nat := none
  /-- FSEQ of that window. R206 (09). -/
  jobSeq : Nat := 0
  /-- The IV of an ENCRYPT under MODE 5 to 7. R65 (03). -/
  iv : BitVec 96 := 0
  /-- Held. R74 (03). -/
  held : Bool := false
  /-- Hold buffer bytes reserved. R22 (01). -/
  holdRes : Nat := 0
  /-- Output in the hold buffer. R75 (03). -/
  holdData : List Byte := []
  /-- K of the profile. R155 (07). -/
  ck : Nat := 0
  /-- M of the profile. R155 (07). -/
  cm : Nat := 0
  /-- ERASED of the pattern entry at admission. R166 (07). -/
  erased : Nat := 0
  /-- Accumulator buffers this DECODE or REBUILD holds. R162 (07). -/
  bufs : Nat := 0
  /-- Accumulators of a DECODE or REBUILD, one string for each erased position. R168 (07). -/
  accs : List (List Byte) := []
  /-- Bytes taken by the Currant. R168 (07). -/
  curIn : Nat := 0
  /-- Bytes that the Currant has sent to the forward half. R86, R168 (04, 07). -/
  staged : Nat := 0
  /-- An ENCODE that closes its row. R161 (07). -/
  closing : Bool := false
  /-- The row that an ENCODE has claimed positions of, by its number. R161, R172 (07). -/
  row : Option Nat := none
  /-- Payload bytes at the cluster, in order. R69 (03). -/
  buf : List Byte := []
  /-- Payload bytes that have passed the second pass of a BRAMBLE_RETURN. R100 (04). -/
  second : Nat := 0
  /-- Output bytes formed. R69 (03). -/
  out : Nat := 0
  /-- Verdict. R72 (03). -/
  verdict : Verdict := .pending
  /-- HOLD-marked bytes already emitted. R54 (02). -/
  holdSent : Nat := 0
  /-- Ended; only its closing messages are still to be driven. R51 (02). -/
  dead : Bool := false
deriving DecidableEq, Repr

/-- One egress message (R35, R40 to R42). -/
structure EMsg where
  /-- Own: the request. -/
  rid : Nat := 0
  /-- The header echoed. R40 (02). -/
  sb : Sideband := 0
  /-- PE_CLASS. R40 (02). -/
  cls : Fin 4 := 0
  /-- KIND. R40 (02). -/
  kind : Nat := 0
  /-- SHARD of the output. R40 (02). -/
  shard : Nat := 0
  /-- IV of the head. R40 (02). -/
  iv : BitVec 96 := 0
  /-- OUTLEN. R40 (02). -/
  outlen : Nat := 0
  /-- EFLAGS.HOLD. R41 (02). -/
  hold : Bool := false
  /-- EFLAGS.HELD. R41 (02). -/
  heldFlag : Bool := false
  /-- EFLAGS.LAST, as the head carries or will carry it. R41 (02). -/
  last : Bool := false
  /-- The head may leave. R75, R164 (03, 07). -/
  ready : Bool := true
  /-- The head has been driven. R32 (02). -/
  headDriven : Bool := false
  /-- Bytes formed and not yet driven. R46 (02). -/
  data : List Byte := []
  /-- Payload bytes driven. R42 (02). -/
  sent : Nat := 0
  /-- STATUS and DETAIL of the tail once decided. R42 (02). -/
  tail : Option (Nat × Nat) := none
  /-- Closed early by one further flit. R51, R81 (02, 03). -/
  closed : Bool := false
  /-- Tail EPOCH. R42 (02). -/
  epoch : Nat := 0
  /-- Tail KEYIDX. R42 (02). -/
  keyidx : Nat := 0
  /-- Tail KGEN. R42 (02). -/
  kgen : Nat := 0
  /-- Own: the request ends when this message's LAST is driven and is still in the context store. R117 (05). -/
  ends : Bool := false
deriving DecidableEq, Repr

/-- One record of a fence (R54, 02). -/
structure FenceRec where
  /-- Header. R54 (02). -/
  sb : Sideband := 0
  /-- PI_CLASS. R54 (02). -/
  cls : Fin 4 := 0
  /-- Byte count of HOLD-marked output already emitted. R54 (02). -/
  zf : Nat := 0
  /-- STATUS of the report. R54 (02). -/
  status : Nat := 0
  /-- DETAIL of the report. R54 (02). -/
  detail : Nat := 0
  /-- Tail EPOCH. R42 (02). -/
  epoch : Nat := 0
  /-- Tail KEYIDX. R42 (02). -/
  keyidx : Nat := 0
  /-- Tail KGEN. R42 (02). -/
  kgen : Nat := 0
  /-- IV of the head. R40 (02). -/
  iv : BitVec 96 := 0
  /-- The record of an admitted request: it keeps its completion record and its egress flit. R54, R101 (02, 04). -/
  admitted : Bool := false
  /-- Bytes of the ZERO_FILL driven since the reopening. R54 (02). -/
  zsent : Nat := 0
deriving DecidableEq, Repr

/-- A message whose head waits in the ingress queue (R49, 02). -/
structure IMsg where
  /-- Own: its place in the order of the port's heads. R49 (02). -/
  no : Nat := 0
  /-- Header. R37 (02). -/
  sb : Sideband := 0
  /-- Head spacing broken. R33 (02). -/
  spacing : Bool := false
  /-- Its flits in the queue. R44 (02). -/
  data : List FlitData := []
  /-- Its tail has arrived. R51 (02). -/
  tail : Bool := false
  /-- Its tenant was reset while it waited, so that check 9 fails it. R233 (10). -/
  atReset : Bool := false
  /-- A head of its class, a host abort or a fence-free ending met it while it waited: the status and DETAIL it ends
  with once admitted. R51, R53 (02). -/
  ending : Option (Nat × Nat) := none
deriving DecidableEq, Repr

/-- What runs in a class of an ingress half (R32, R50, R483, 02). -/
inductive IngRun where
  /-- No message open and no discard running. -/
  | idle
  /-- The open message is the last one that waits for admission. -/
  | waiting
  /-- The open message is the admitted request. -/
  | admitted (rid : Nat)
  /-- The open message was rejected; its STATUS waits for its tail. -/
  | rejected (sb : Sideband) (status detail keyidx kgen : Nat)
  /-- The admitted request has ended under R67; its STATUS waits for its tail, and its flits are discarded (R50). -/
  | ended (rid : Nat)
  /-- Flits of an ended message are discarded. -/
  | discard
deriving DecidableEq, Repr

/-- One class of an ingress half. -/
structure IngClass where
  /-- Messages whose heads wait, oldest first. R49 (02). Reset empty. -/
  waiting : List IMsg := []
  /-- The open message or the discard running. R32, R483 (02). Reset none. -/
  run : IngRun := .idle
  /-- PI_CRED pulses given since the enable, less the credits used: the unspent credit the host holds. R44, R52 (02).
  Reset 0. -/
  unspent : Nat := 0
  /-- Pulses on PI_CRED[c] since the port was last enabled. R44 (02). Reset 0. -/
  pulses : Nat := 0
  /-- Flit gap timer, core cycles. R52 (02). Reset 0. -/
  gap : Nat := 0
deriving DecidableEq, Repr

/-- The egress outputs of a port as last driven (Table 2.1, R31). -/
structure EgressPins where
  /-- PE_VALID. R31 (02). Reset 0. -/
  valid : Bool := false
  /-- PE_DATA, 2,048 bits. R31 (02). Reset 0. -/
  data : FlitData := 0
  /-- PE_CLASS. R31 (02). Reset 0. -/
  cls : Fin 4 := 0
  /-- PE_HEAD. R31 (02). Reset 0. -/
  head : Bool := false
  /-- PE_TAIL. R31 (02). Reset 0. -/
  tail : Bool := false
  /-- PE_HSB, 256 bits. R40 (02). Reset 0. -/
  hsb : Sideband := 0
  /-- PE_TSB, 256 bits. R42 (02). Reset 0. -/
  tsb : Sideband := 0
  /-- PE_HOLD. R43 (02). Reset 0. -/
  hold : Bool := false
  /-- PE_ZF. R43 (02). Reset 0. -/
  zf : Bool := false
deriving DecidableEq, Repr

/-- State of a stream or line port (R55, R267). -/
inductive PortState where
  | disabled
  | enabled
  | fenced
deriving DecidableEq, Repr

/-- An open stripe row of a Currant (R161, 07). -/
structure Row where
  /-- Own: the number of the opening in its Currant. R172 (07). -/
  no : Nat
  /-- Identity. R161 (07). -/
  id : RowId
  /-- KEYIDX of the opener. R161 (07). -/
  keyidx : Nat
  /-- KGEN of the opener. R161 (07). -/
  kgen : Nat
  /-- Tenant epoch at opening. R161 (07). -/
  epoch : Nat
  /-- K of the profile. R155 (07). -/
  ck : Nat
  /-- M of the profile. R155 (07). -/
  cm : Nat
  /-- Positions claimed, a mask. R161 (07). -/
  claimed : Nat
  /-- Positions that have passed Un, a mask. R164 (07). -/
  passed : Nat
  /-- Parity accumulators, m strings of 4,112 bytes. R162, R163 (07). -/
  accs : List (List Byte)
  /-- The closing request. R161 (07). -/
  closer : Option Nat
  /-- Cycle of the last admission. R172 (07). -/
  lastAt : Nat
  /-- PARITY messages not yet fully driven. R165 (07). -/
  parityLeft : Nat
deriving DecidableEq, Repr

/-- A flit at an input of a Currant (R27, 07). -/
structure CurFlit where
  /-- Own: the request. -/
  rid : Nat
  /-- Class. R98 (04). -/
  cls : Fin 4
  /-- From the return half (ENCODE), else from admission. R27 (01). -/
  fromReturn : Bool
  /-- Position of the coding unit (ENCODE). R163 (07). -/
  pos : Nat
  /-- Byte offset within the unit (ENCODE) or within the payload. R168 (07). -/
  off : Nat
  /-- Its bytes. R163 (07). -/
  bytes : List Byte
deriving DecidableEq, Repr

/-- A Currant (07). -/
structure Currant where
  /-- Open rows. R161 (07). Reset none. -/
  rows : List Row := []
  /-- Own: the number of the next row opened. R161 (07). Reset 0. -/
  nextRow : Nat := 0
  /-- Header of each of the 32 erasure pattern entries, 256 bits, default 0. R166 (07). Reset 0. -/
  patterns : Tbl (BitVec 256) := []
  /-- Coefficient bytes 0x020–0x11F of each entry, default empty. R166 (07). Reset 0. -/
  coefs : Tbl (List (List Byte)) := []
  /-- Check coefficients of each entry. R365 (16). Reset 0. -/
  checks : Tbl (List Byte) := []
  /-- Tenant epoch of each entry. R230 (10). Reset 0. -/
  epochs : Tbl Nat := []
  /-- Flits at the return-half input. R27 (01). Reset none. -/
  fromReturn : List CurFlit := []
  /-- Flits at the admission input: in the ingress queue, which holds their credits. R27, R44 (01, 02). Reset none. -/
  fromAdmission : List CurFlit := []
  /-- The other input was served last while both waited. R27 (01). Reset false. -/
  servedReturn : Bool := false
  /-- A flit whose check column disagreed once. R366 (16). Reset none. -/
  repass : Option CurFlit := none
deriving DecidableEq, Repr

/-- A stream port with its admission and its Currant. -/
structure Port where
  /-- State. R55, R267 (02, 12). Reset DISABLED. -/
  st : PortState := .disabled
  /-- CAUSE of XN_PORT_QUERY. R267 (12). Reset 0. -/
  cause : Nat := 0
  /-- Rind reports the ingress clock present. R18 (01). Reset present: DESIGN CHOICE (log entry 8). -/
  piClk : Bool := true
  /-- Rind reports the egress clock present. R18 (01). Reset present: DESIGN CHOICE (log entry 8). -/
  peClk : Bool := true
  /-- PORT_CREDIT, 64 bits. R44, Table 14.13 (14). Reset 32, 96, 96, 32. -/
  portCredit : Word64 := 0x10180C020#64
  /-- Pool sizes taken at the last enable, flits. R44 (02). Reset 0. -/
  pools : Quad Nat := ⟨0, 0, 0, 0⟩
  /-- The last flit of the ingress was a head. R33 (02). Reset false. -/
  lastIn : Bool := false
  /-- Own: the next head's place in the order of the port's heads. R49 (02). Reset 0. -/
  nextHead : Nat := 0
  /-- Ingress, by class. R32 (02). Reset empty. -/
  ing : Quad IngClass := ⟨{}, {}, {}, {}⟩
  /-- Admitted requests, oldest first: the port's part of the context store. R21 (01). Reset empty. -/
  reqs : List Req := []
  /-- Own: the next admission number. Reset 0. -/
  nextRid : Nat := 0
  /-- Egress messages, oldest first: the egress buffer and the completion records. R46, R101 (02, 04). Reset empty. -/
  msgs : List EMsg := []
  /-- Egress credit counters, 0–4,095. R46 (02). Reset 0. -/
  credit : Quad Nat := ⟨0, 0, 0, 0⟩
  /-- Stall timers, core cycles. R47 (02). Reset 0. -/
  stall : Quad Nat := ⟨0, 0, 0, 0⟩
  /-- EV_PORT_STALL raised for the running stall. R47 (02). Reset false. -/
  stalled : Quad Bool := ⟨false, false, false, false⟩
  /-- PE_HEAD was driven in the last egress cycle. R33 (02). Reset false. -/
  lastHead : Bool := false
  /-- Egress outputs. R31 (02). Reset low. -/
  pe : EgressPins := {}
  /-- Records of a fence. R54 (02). Reset none. -/
  recs : List FenceRec := []
  /-- Class-0 token level in 1/256 flit. R92 (04). Reset 0. -/
  tokens : Int := 0
  /-- OVERRUN of PORT_ERRORS, 16 bits saturating. Table 14.13 (14). Reset 0. -/
  overrun : Nat := 0
  /-- ECREDIT of PORT_ERRORS, 16 bits saturating. Table 14.13 (14). Reset 0. -/
  ecredit : Nat := 0
  /-- ORPHAN of PORT_ERRORS, 16 bits saturating. Table 14.13 (14). Reset 0. -/
  orphan : Nat := 0
  /-- The Currant. 07. Reset empty. -/
  cur : Currant := {}
deriving DecidableEq, Repr

/-- A flit, or the second pass of one, in a cluster's input staging (R89, R100, 04). -/
structure StagedFlit where
  /-- Stream port. R12 (01). -/
  port : Nat
  /-- Own: the request. -/
  rid : Nat
  /-- Class. R89 (04). -/
  cls : Fin 4
  /-- Admission order of its message. R89 (04). -/
  order : Nat
  /-- Its bytes. R69 (03). -/
  bytes : List Byte
  /-- Blocks issued, 0–16. R91 (04). -/
  done : Nat := 0
  /-- Second pass of a BRAMBLE_RETURN. R100 (04). -/
  second : Bool := false
  /-- It waits in the ingress queue, which holds its credit, for its turn at the forward half. R44, R52 (02). -/
  queued : Bool := false
deriving DecidableEq, Repr

/-- Output of a cluster, at most one flit, that waits at its input of the return half (R24, R88). -/
structure OutFlit where
  /-- Stream port. R12 (01). -/
  port : Nat
  /-- Own: the request. -/
  rid : Nat
  /-- Class. R88 (04). -/
  cls : Fin 4
  /-- Position of the coding unit and offset in it, of an ENCODE on its way to the Currant. R163 (07). -/
  coding : Option (Nat × Nat) := none
  /-- Its bytes. R24 (01). -/
  bytes : List Byte
  /-- The last output of the request. R42 (02). -/
  fin : Bool := false
deriving DecidableEq, Repr

/-- One key of a cluster key file (R123, 05). -/
structure KeyFileEntry where
  /-- Slot. R123 (05). -/
  slot : Nat
  /-- Generation. R117 (05). -/
  kgen : Nat
  /-- Key bytes in clear. R21 (01). -/
  key : List Byte
  /-- Tag material H and K_E of a MODE 3 or 4 key. R64 (03). -/
  tagMat : List Byte × List Byte
  /-- Entries it occupies, 1 or 2. R123 (05). -/
  size : Nat
  /-- Last used by a message with PIN_HINT. R123 (05). -/
  hint : Bool
deriving DecidableEq, Repr

/-- A kept tweak of the lookahead (R71, 03). -/
structure KeptTweak where
  /-- Tenant. R71 (03). -/
  tenant : Nat
  /-- Queue. R71 (03). -/
  queue : Nat
  /-- Key slot. R71 (03). -/
  slot : Nat
  /-- Its generation. R71 (03). -/
  kgen : Nat
  /-- Predicted DUNIT. R71 (03). -/
  dunit : Nat
  /-- Epoch stamp. R230 (10). -/
  epoch : Nat
  /-- Encrypted tweak, 16 bytes. R71 (03). -/
  tweak : List Byte
  /-- Cycle in which it is ready. R71 (03). -/
  readyAt : Nat
deriving DecidableEq, Repr

/-- A sub-lease register (R141, 06). -/
structure SubLease where
  /-- Lease index, 44 bits. R136 (06). -/
  lease : Nat
  /-- SUB, 16 bits. R136 (06). -/
  sub : Nat
  /-- IV slot, 12 bits. R138 (06). -/
  slot : Nat
  /-- Next OFF, 24 bits. R136 (06). -/
  off : Nat
deriving DecidableEq, Repr

/-- Blocks that failed their check and wait for their retry (R362, 16). -/
structure Retry where
  /-- The flit. R362 (16). -/
  flit : StagedFlit
  /-- Lanes of the failed blocks, each with the slices it has failed on, latest first. R362 (16). -/
  blocks : List (Fin 16 × List Nat)
  /-- Retry cycles taken so far, by which the lanes are rotated. R362 (16). -/
  turns : Nat
deriving DecidableEq, Repr

/-- A stream cluster. -/
structure Cluster where
  /-- Flits that wait for its input of the forward half, in the ingress queues and from the Currants, oldest first. R52, R88
  (02, 04). Reset empty. -/
  fwdIn : List StagedFlit := []
  /-- Port that this input granted last in classes 1 to 3. R88 (04). Reset 63: DESIGN CHOICE (log entry 124). -/
  fwdLast : Nat := 63
  /-- Outputs that wait at its input of the return half, oldest first. R88 (04). Reset empty. -/
  retIn : List OutFlit := []
  /-- Port that this input granted last in classes 1 to 3. R88 (04). Reset 63: DESIGN CHOICE (log entry 124). -/
  retLast : Nat := 63
  /-- Input staging with the class-0 slots, oldest first. R89 (04). Reset empty. -/
  staging : List StagedFlit := []
  /-- Deficit of classes 1 to 3, flits. R89 (04). Reset 0. -/
  deficit : Quad Nat := ⟨0, 0, 0, 0⟩
  /-- Class the round robin stands at. R89 (04). Reset 1. -/
  turn : Fin 4 := 1
  /-- Failed blocks awaiting retry. R362 (16). Reset none. -/
  retry : List Retry := []
  /-- Flits with a block that failed its check on three slices, held for the reset of the cluster. R362 (16). Reset none. -/
  stuck : List StagedFlit := []
  /-- Core cycles of the last second-pass issues. R100 (04). Reset none. -/
  secondAt : List Nat := []
  /-- Key file, most recently used first. R123 (05). Reset empty. -/
  keyFile : List KeyFileEntry := []
  /-- Kept tweaks. R71 (03). Reset none. -/
  tweaks : List KeptTweak := []
  /-- Sub-lease register CUR. R141 (06). Reset empty. -/
  cur : Option SubLease := none
  /-- Sub-lease register NEXT. R141 (06). Reset empty. -/
  nxt : Option SubLease := none
deriving DecidableEq, Repr

/-! ### Keys -/

/-- A tenant KEK (R110, 05). -/
structure Kek where
  /-- SOURCE: 0 EMPTY, 1 SHARES, 2 WRAPPED. R110, R279 (05, 12). -/
  source : Nat := 0
  /-- The KEK as an AES-KW record under CK, 40 bytes. R106, R113 (05). -/
  record : List Byte := []
deriving DecidableEq, Repr

/-- A group transport key (R457, 20). -/
structure Gtk where
  /-- EPOCH. R457 (20). -/
  epoch : Nat
  /-- The key as an AES-KW record under CK. R106 (05). -/
  record : List Byte
deriving DecidableEq, Repr

/-- One officer (R108, R251 to R255). -/
structure Officer where
  /-- Authentication key register, 256 bits. R108 (05). Reset 0. -/
  key : List Byte := []
  /-- ENROLLED. R251 (11). Reset 0. -/
  enrolled : Bool := false
  /-- NONCE, 96 bits. R252 (11). Reset 0. -/
  nonce : BitVec 96 := 0
  /-- COUNT, 32 bits. R252 (11). Reset 0. -/
  count : Nat := 0
  /-- FAILS, 0–8. R255 (11). Reset 0. -/
  fails : Nat := 0
  /-- End of the lockout, µs. R255 (11). Reset none. -/
  lockUntil : Option Nat := none
  /-- End of the enrolment allowance, µs. R290 (12). Reset none. -/
  allowUntil : Option Nat := none
deriving DecidableEq, Repr

/-- A dual-control session (R127 to R130, 05; Table 12.17). -/
structure Session where
  /-- SESSION, 16 bits; 0 when none since power-on. R286 (12). Reset 0. -/
  num : Nat := 0
  /-- PURPOSE. Table 5.8 (05). Reset 0. -/
  purpose : Nat := 0
  /-- Tenant of the target. R286 (12). Reset 0. -/
  tenant : Nat := 0
  /-- KEK slot of the target. R286 (12). Reset 0. -/
  kekslot : Nat := 0
  /-- EPOCH of the target. R286 (12). Reset 0. -/
  epoch : Nat := 0
  /-- SOURCE of the target. R286 (12). Reset 0. -/
  source : Nat := 0
  /-- Expiry, µs. R128 (05). Reset 0. -/
  expiry : Nat := 0
  /-- STATE: 0 NONE, 1 OPEN, 2 A committed, 3 B committed, 4 COMPLETE, 5 ENDED. R289 (12). Reset 0. -/
  state : Nat := 0
  /-- CAUSE. R289 (12). Reset 0. -/
  cause : Nat := 0
  /-- The stored share, 64 bytes. R129 (05). Reset none. -/
  share : List Byte := []
  /-- KCV of a completed share purpose. R289 (12). Reset 0. -/
  kcv : List Byte := []
deriving DecidableEq, Repr

/-- The key custody of the chip. -/
structure Keys where
  /-- VK, 256 bits. R105 (05). Reset none. -/
  vk : Option (List Byte) := none
  /-- TK, 256 bits. R105 (05). Reset none. -/
  tk : Option (List Byte) := none
  /-- CK, 512 bits. R106 (05). Reset none. -/
  ck : Option (List Byte) := none
  /-- Custody keys that the boot has found good and that wait for CK: record type, index, SOURCE of a KEK (R110), and the blob of
  the vault, still wrapped under VK or TK. R113 (05). Reset none. -/
  awaitCk : List (Nat × Nat × Nat × List Byte) := []
  /-- Device secret in use, 0–3; 0xFF when all are killed. R135 (05). Reset from OTP. -/
  secretGen : Nat := 0
  /-- Slot descriptors, 256 bits, default 0. R114 (05). Reset 0. -/
  desc : Tbl (BitVec 256) := []
  /-- The inverted copy of bits 255:76 of each slot descriptor. R114, R391 (05, 17). Reset all ones. -/
  descInv : Tbl (BitVec 180) := []
  /-- Slot key bytes under CK, 64 bytes, default empty. R106 (05). Reset empty. -/
  cache : Tbl (List Byte) := []
  /-- The 16 bytes of symbol code of each slot. R114, R116 (05). Reset 0. -/
  codes : Tbl (BitVec 128) := []
  /-- In-flight counts. R117 (05). Reset 0. -/
  inflight : Tbl Nat := []
  /-- Slots in CLEARING that no retirement brought there: their end records no EV_KEY_RETIRED. R116, R236 (05, 10).
  Reset none. -/
  silent : List Nat := []
  /-- Pin store: slot, key bytes under CK, tenant epoch, default none. R125 (05). Reset empty. -/
  pins : Tbl (Option (Nat × List Byte × Nat)) := []
  /-- KEKs at 16 × tenant + slot, default EMPTY. R110 (05). Reset EMPTY. -/
  keks : Tbl Kek := []
  /-- Current GTK. R457 (20). Reset none. -/
  gtkCur : Option Gtk := none
  /-- Previous GTK. R457 (20). Reset none. -/
  gtkPrev : Option Gtk := none
  /-- Officer A. R108 (05). -/
  offA : Officer := {}
  /-- Officer B. R108 (05). -/
  offB : Officer := {}
  /-- The open or last session. R127 (05). -/
  session : Session := {}
  /-- Line key descriptors, 128 bits, default 0. R181 (08). Reset 0. -/
  ldesc : Tbl (BitVec 128) := []
  /-- The inverted copy of bits 127:76 of each line key descriptor. R181, R391 (08, 17). Reset all ones. -/
  ldescInv : Tbl (BitVec 52) := []
  /-- Line key bytes under CK in the line key stores of the eight groups, at 4,096 × group + entry, default empty. R106,
  R181 (05, 08). Reset empty. -/
  lstore : Tbl (List Byte) := []
  /-- Their symbol codes, 16 bytes each, at the same places. R181 (08). Reset 0. -/
  lcodes : Tbl (BitVec 128) := []
  /-- Line requests in flight by entry. R197 (08). Reset 0. -/
  linflight : Tbl Nat := []
  /-- Entries in CLEARING that no retirement brought there. R116, R236 (05, 10). Reset none. -/
  lsilent : List Nat := []
  /-- Key registers of each line port group: entries, the KEEP keys first, then at most 8 others, most recently used first.
  R183 (08). Reset empty. -/
  lregs : Tbl (List Nat) := []
deriving DecidableEq, Repr

/-! ### Counter -/

/-- A lease reservation under way (R139, R145, 06). -/
structure Reservation where
  /-- Lease index. R139 (06). -/
  lease : Nat
  /-- REASON. R144 (06). -/
  reason : Nat
  /-- PREV. R144 (06). -/
  prev : Nat
  /-- IV slot recorded. R138 (06). -/
  slot : Nat
  /-- GROUPED. R144 (06). -/
  grouped : Bool
  /-- Verified on device 0. R139 (06). -/
  ok0 : Bool := false
  /-- Verified on device 1. R139 (06). -/
  ok1 : Bool := false
  /-- Failed positions on device 0. R145 (06). -/
  bad0 : Nat := 0
  /-- Failed positions on device 1. R145 (06). -/
  bad1 : Nat := 0
deriving DecidableEq, Repr

/-- Damson (06). -/
structure Damson where
  /-- Highest reserved lease since power-on. R139 (06). Reset none. -/
  highest : Option Nat := none
  /-- Lease being handed out, with its IV slot. R140 (06). Reset none. -/
  current : Option (Nat × Nat) := none
  /-- Next reserved lease, with its IV slot. R140 (06). Reset none. -/
  next : Option (Nat × Nat) := none
  /-- Next SUB of the current lease, 0–65,536. R141 (06). Reset 0. -/
  sub : Nat := 0
  /-- Reservation under way. R139 (06). Reset none. -/
  res : Option Reservation := none
  /-- LEASE_BLOCKED. R145 (06). Reset 0. -/
  blocked : Bool := false
  /-- Last try of a blocked reservation, µs. R145 (06). Reset 0. -/
  triedAt : Nat := 0
  /-- EXHAUSTED. R152 (06). Reset 0. -/
  exhausted : Bool := false
  /-- IV slot in force. R137 (06). Reset LOCAL_SLOT default 0. -/
  slot : Nat := 0
  /-- The slot comes from a group descriptor. R144 (06). Reset 0. -/
  grouped : Bool := false
  /-- Slot change in progress: new slot, GROUPED. R138 (06). Reset none. -/
  change : Option (Nat × Bool) := none
  /-- Write position of device 0: sector × 2,048 + position. R145 (06). Reset 0. -/
  wpos0 : Nat := 0
  /-- Write position of device 1. R145 (06). Reset 0. -/
  wpos1 : Nat := 0
  /-- LOCAL_SLOT, 12 bits. R137, R285 (06, 12). Reset 0. -/
  localSlot : Nat := 0
  /-- Halted: hands out nothing until power is cycled. R143 (06). Reset false. -/
  stopped : Bool := false
  /-- The recovery of a boot waits for PFAIL_N to deassert before its resume reservation: the highest LEASE it read. R149, R151
  (06), R444 (19). Reset none. -/
  recover : Option (Option Nat) := none
  /-- A HOST_RST_N has left the resume reservation still to be started. R149 (06). Reset false. -/
  resume : Bool := false
  /-- After a reset or a slot change, every CUR is filled before any NEXT. R141 (06). Reset true. -/
  filling : Bool := true
deriving DecidableEq, Repr

/-! ### Line plane -/

/-- Whose line request it is (R175, R192, R215). -/
inductive LineKind where
  | host
  | sweep
  | rekey
  /-- An access of Dolha's own to a VITAL region (R184). -/
  | own
deriving DecidableEq, Repr

/-- A request on the way to the controller, or an outstanding read (R175, R196, 08). -/
structure LineOp where
  /-- Whose request it is. R192, R215 (08, 09). -/
  kind : LineKind
  /-- MQ_WRITE. R175 (08). -/
  write : Bool
  /-- Line address. R175 (08). -/
  addr : Nat
  /-- MQ_TAG, 9 bits. R175 (08). -/
  tag : Nat
  /-- MQ_DATA. R175 (08). -/
  data : BitVec 512 := 0
  /-- MQ_META. R186 (08). -/
  metadata : BitVec 32 := 0
  /-- Region of the lookup. R197 (08). -/
  region : Nat
  /-- Key entry of the lookup. R197 (08). -/
  entry : Nat
  /-- Its LGEN. R185 (08). -/
  lgen : Nat
  /-- K1 and K2 of the lookup, as held by the pipes. R28 (01). -/
  key : List Byte
  /-- Configuration generation of the lookup. R222 (09). -/
  gen : Nat
deriving DecidableEq, Repr

/-- The FS outputs of a lane as last driven (Table 8.1). -/
structure FsPins where
  /-- FS_VALID. R175 (08). Reset 0. -/
  valid : Bool := false
  /-- FS_WRITE. R175 (08). Reset 0. -/
  write : Bool := false
  /-- FS_TAG, 8 bits. R175 (08). Reset 0. -/
  tag : Nat := 0
  /-- FS_RESP, 2 bits. R175 (08). Reset 0. -/
  resp : Nat := 0
  /-- FS_STATUS, 8 bits. R175 (08). Reset 0. -/
  status : Nat := 0
  /-- FS_DATA, 512 bits. R175 (08). Reset 0. -/
  data : BitVec 512 := 0
deriving DecidableEq, Repr

/-- One lane of a line port. -/
structure Lane where
  /-- Requests of the fabric that wait for MQ_READY, oldest first. R175 (08). Reset empty. -/
  mq : List LineOp := []
  /-- Background requests that wait for MQ_READY, oldest first: within their budget they go before those of the fabric. R192,
  R216 (08, 09). Reset empty. -/
  bg : List LineOp := []
  /-- Lines with a block that failed its check on three slices: they are held until the port is reset or fenced. R362, R364
  (16). Reset none. -/
  stuck : List LineOp := []
  /-- Reads the controller has taken, with their tweaks' inputs: the tweak store. R196 (08). Reset empty. -/
  reads : List LineOp := []
  /-- Hold queue of a line window, at most 32. R214 (09). Reset empty. -/
  held : List LineRequest := []
  /-- Responses driven in the last step, oldest first; the last is on the pins. R175 (08). Reset none. -/
  fs : List FsPins := []
  /-- Tags of aborted reads whose data is still to be taken and discarded. R198 (08). Reset none. -/
  aborted : List Nat := []
deriving DecidableEq, Repr

/-- A request of the fabric that waits for its lookup (R19, R214). -/
structure WaitingLine where
  /-- Lane. R175 (08). -/
  lane : Fin 2
  /-- The request. R175 (08). -/
  req : LineRequest
  /-- It was taken before the window that holds its line became pending, and is still to be issued. R214 (09). -/
  early : Bool := false
deriving DecidableEq, Repr

/-- A line port (08). -/
structure LinePort where
  /-- State. R200 (08). Reset DISABLED. -/
  st : PortState := .disabled
  /-- CAUSE of XN_PORT_QUERY. R267 (12). Reset 0. -/
  cause : Nat := 0
  /-- Rind reports LC_CLK present. R18 (01). Reset present: DESIGN CHOICE (log entry 8). -/
  clk : Bool := true
  /-- Lane 0. R175 (08). -/
  lane0 : Lane := {}
  /-- Lane 1. R175 (08). -/
  lane1 : Lane := {}
  /-- Requests of the fabric that wait for their lookup, oldest first, at most 32. R19 (01). Reset empty. -/
  fq : List WaitingLine := []
  /-- FQ_READY is low until this cycle for retry slots and tests. R364, R368 (16). Reset 0. -/
  fqStall : Nat := 0
  /-- MD_READY is low until this cycle for retry slots. R364 (16). Reset 0. -/
  mdStall : Nat := 0
  /-- REFUSED of LINE_ERRORS, 16 bits. Table 14.16 (14). Reset 0. -/
  refused : Nat := 0
  /-- ECC of LINE_ERRORS, 16 bits. Table 14.16 (14). Reset 0. -/
  ecc : Nat := 0
  /-- AUTH of LINE_ERRORS, 16 bits. Table 14.16 (14). Reset 0. -/
  auth : Nat := 0
  /-- Cycles of the last background writes. R192 (08). Reset none. -/
  bgWrites : List Nat := []
  /-- Cycles of the last rekey reads. R216 (09). Reset none. -/
  bgReads : List Nat := []
  /-- The last background slot served a sweep. R216 (09). Reset false. -/
  lastSweep : Bool := false
  /-- Time of the last move of the standby role, µs. R368 (16). Reset 0. -/
  rotatedAt : Nat := 0
deriving DecidableEq, Repr

/-- The sweep of a region (R191, 08): what of a region entry changes without a generation. -/
structure Sweep where
  /-- SWEEP, 46 bits. R178 (08). Reset 0. -/
  bound : Nat := 0
  /-- SSTATE. R178 (08). Reset 0. -/
  state : Nat := 0
  /-- Lines above SWEEP already taken by the controller. R191 (08). Reset none. -/
  taken : List Nat := []
  /-- Line ports whose fence or disable pauses it, none where its pause is the owner's. R194, R266 (08, 12). Reset none. -/
  byPort : List Nat := []
deriving DecidableEq, Repr

/-- A line rekey job (R213 to R217, 09). -/
structure LineJob where
  /-- Region. R213 (09). -/
  region : Nat
  /-- RB. R213 (09). -/
  rb : Nat
  /-- RE, equal to RB while no window. R214 (09). -/
  re : Nat
  /-- Window: 0 none, 1 pending, 2 open. R214 (09). -/
  win : Nat
  /-- Lines of the window written or skipped. R215 (09). -/
  done : List Nat
  /-- Paused. R302 (13). -/
  paused : Bool
  /-- RB has passed the last line and the swap is due at this time, µs. R217 (09). -/
  swapAt : Option Nat
deriving DecidableEq, Repr

/-! ### Live ranges -/

/-- The window of a live range (R205 to R210, 09). -/
structure Window where
  /-- E, one past the last unit. R205 (09). -/
  e : Nat
  /-- Open, else pending. R206 (09). -/
  isOpen : Bool := false
  /-- FSEQ. R206 (09). -/
  fseq : Nat := 0
  /-- Start of the FETCH_LIMIT interval, µs. R210 (09). -/
  since : Nat := 0
  /-- The return has been admitted. R207 (09). -/
  returned : Bool := false
  /-- A BRAMBLE_OUT flit has been driven. R210 (09). -/
  outBegun : Bool := false
  /-- The last BRAMBLE_OUT flit has been driven. R208 (09). -/
  outDone : Bool := false
deriving DecidableEq, Repr

/-- States of a live range (Table 9.4, 09). -/
inductive RangeState where
  | armed
  | opened
  | window
  | paused
  | stopped
  | frozen
  | done
deriving DecidableEq, Repr

/-- A live range (R203, 09). -/
structure Range where
  /-- Tenant that armed it. R203 (09). -/
  tenant : Nat
  /-- Epoch stamp. R230 (10). -/
  epoch : Nat
  /-- Old key slot O, 20 bits. R203 (09). -/
  o : Nat
  /-- Its generation, 8 bits. R203 (09). -/
  ogen : Nat
  /-- New key slot N, 20 bits. R203 (09). -/
  n : Nat
  /-- Its generation, 8 bits. R203 (09). -/
  ngen : Nat
  /-- LO, 64 bits. R203 (09). -/
  lo : Nat
  /-- HI, 64 bits. R203 (09). -/
  hi : Nat
  /-- B. R203 (09). -/
  b : Nat
  /-- State. Table 9.4 (09). -/
  st : RangeState
  /-- FSEQ of the next window. R206 (09). -/
  fseq : Nat
  /-- The window. R205 (09). -/
  win : Option Window
  /-- A pause waits for the window to close. R301 (13). -/
  pausing : Bool
deriving DecidableEq, Repr

/-! ### Configuration -/

/-- One tenant's entry of the tenant table that changes by generation (Table 10.1, 10). -/
structure TenantCfg where
  /-- The 16 queues, 16 bits each, queue q at bits 16q+15:16q, coded as Table 12.7. R225 (10). Reset disabled. -/
  queues : BitVec 256 := 0
  /-- HOLD_LIMIT in steps of 256 bytes. R74 (03). Reset 256. -/
  holdLimit : Nat := 256
  /-- NO_HOLD permitted. R48 (02). Reset 0. -/
  noHold : Bool := false
  /-- CLEAR_DEK permitted. R119 (05). Reset 0. -/
  clearDek : Bool := false
  /-- MODES mask. R119 (05). Reset 0xFE. -/
  modes : Nat := 0xFE
  /-- Default BUDGET of MODE m at bits 24(m−1)+23:24(m−1); 0 is the factory value. R126 (05). Reset factory. -/
  budgets : BitVec 168 := 0
  /-- ACC_QUOTA. R162 (07). Reset 32. -/
  accQuota : Nat := 32
  /-- PATTERN_QUOTA. R167 (07). Reset 4. -/
  patQuota : Nat := 4
  /-- RANGE_QUOTA. R203 (09). Reset 0. -/
  rangeQuota : Nat := 0
  /-- Key slot quota base. R115 (05). Reset 0. -/
  slotBase : Nat := 0
  /-- Key slot quota size. R115 (05). Reset 0. -/
  slotSize : Nat := 0
  /-- Line key quota base. R182 (08). Reset 0. -/
  lkeyBase : Nat := 0
  /-- Line key quota size. R182 (08). Reset 0. -/
  lkeySize : Nat := 0
  /-- PIN_QUOTA. R125 (05). Reset 64. -/
  pinQuota : Nat := 64
deriving DecidableEq, Repr

/-- One copy of the tables that change by generation (Table 9.5, 09). Registers hold their 64-bit words. -/
structure Cfg where
  /-- Tenant table. R224 (10). Reset defaults. -/
  tenants : Tbl TenantCfg := []
  /-- Stripe profiles, 32 bits, default 0. R155 (07). Reset 0. -/
  profiles : Tbl (BitVec 32) := []
  /-- Check coefficients w_j of each profile, as written to every Currant with it, default none. R365 (16). Reset none. -/
  encodeChecks : Tbl (List Byte) := []
  /-- Region entries without SWEEP and SSTATE, 256 bits, default 0. R178 (08). Reset 0. -/
  regions : Tbl (BitVec 256) := []
  /-- The inverted copy of the region entries. R178, R391 (08, 17). Reset all ones. -/
  regionsInv : Tbl (BitVec 256) := []
  /-- Staged registers by global-page offset, where not at the reset value. R330 (14). Reset values of Chapter 14. -/
  regs : Tbl Word64 := []
deriving DecidableEq, Repr

/-! ### Tenants -/

/-- Tenant states (Table 10.2, 10). -/
inductive TState where
  | disabled
  | enabled
  | resetting
  | faulted
deriving DecidableEq, Repr

/-- A tenant's state outside the generations. -/
structure Tenant where
  /-- State. R226 (10). Reset DISABLED. -/
  st : TState := .disabled
  /-- Epoch, 8 bits. R230 (10). Reset 0. -/
  epoch : Nat := 0
  /-- Where the running reset leads: 1 ENABLED, 2 DISABLED, 3 FAULTED. R226 (10). Reset 1. -/
  toward : Nat := 1
  /-- The sweep has ended and the purge of a disable runs. R236 (10). Reset false. -/
  purging : Bool := false
  /-- Cause of the last reset. R235, R273 (10, 12). Reset 0. -/
  cause : Nat := 0
  /-- Requests ended by the running reset. R235 (10). Reset 0. -/
  ended : Nat := 0
  /-- Start of the running reset, µs. R233 (10). Reset 0. -/
  since : Nat := 0
  /-- Key slots, KEKs and line key entries removed by the purge. R271 (12). Reset 0. -/
  purged : Nat × Nat × Nat := (0, 0, 0)
  /-- KEK slots whose erase record is still to be verified. R271 (12). Reset none. -/
  kekLeft : List Nat := []
  /-- Job of the running disable. R271 (12). Reset none. -/
  job : Option (BitVec 32) := none
  /-- Sticky indices that faulted the tenant. R272 (12). Reset none. -/
  causes : List Nat := []
  /-- ALARM. R238 (10). Reset 0. -/
  alarm : Bool := false
  /-- AUTH_LIMIT. R224 (10). Reset 16. -/
  authLimit : Nat := 16
  /-- AUTH_ACTION FAULT. R224 (10). Reset RECORD. -/
  authFault : Bool := false
  /-- Failures in the interval. R238 (10). Reset 0. -/
  authCount : Nat := 0
  /-- The first failure of the interval was a line's. R238 (10). Reset 0. -/
  authLine : Bool := false
  /-- The alarm of this interval has been raised. R238 (10). Reset 0. -/
  authAlarmed : Bool := false
deriving DecidableEq, Repr

/-! ### Mailboxes -/

/-- Slot states (Table 11.3, 11). -/
inductive SlotState where
  | free
  | submitted
  | executing
  | done
deriving DecidableEq, Repr

/-- One slot of a mailbox (R240, 11). -/
structure MbSlot where
  /-- State. R242 (11). Reset FREE. -/
  st : SlotState := .free
  /-- Command area, 128 bytes. R244 (11). Reset 0. -/
  cmd : CommandWord := 0
  /-- Response area, 64 bytes. R245 (11). Reset 0. -/
  resp : ResponseWord := 0
  /-- Tenant epoch at the submission; zero for the other mailboxes. R230 (10). Reset 0. -/
  epoch : Nat := 0
deriving DecidableEq, Repr

/-- A running job, or a stored result (R249, 11). -/
structure Job where
  /-- Handle. R249 (11). -/
  handle : BitVec 32
  /-- Opcode that started it. R265 (12). -/
  opcode : Nat
  /-- The work has ended with this STATUS, DETAIL and RESULT bytes 0x12 on, and the job's end is due. R249 (11). -/
  due : Option (Nat × Nat × Nat) := none
  /-- The job has ended with this STATUS, DETAIL and RESULT bytes 0x12 on. R265 (12). -/
  result : Option (Nat × Nat × Nat) := none
deriving DecidableEq, Repr

/-- A mailbox page (R239, R340). -/
structure Mailbox where
  /-- Slots 0–7, default FREE and zero. R242 (11). Reset FREE. -/
  slots : Tbl MbSlot := []
  /-- SUBMITTED slots in doorbell order. R247 (11). Reset none. -/
  order : List Nat := []
  /-- BADRING, 16 bits. Table 14.22 (14). Reset 0. -/
  badring : Nat := 0
  /-- BADWRITE, 16 bits. Table 14.22 (14). Reset 0. -/
  badwrite : Nat := 0
  /-- ATT_EN, 16 bits. R336 (14). Reset 0. -/
  attEn : Nat := 0
  /-- ATT_PEND, 16 bits. R336 (14). Reset 0. -/
  attPend : Nat := 0
  /-- BLOB words written, by index; an entry carries its written flag, default none. R262 (12). Reset unwritten. -/
  blob : Tbl (Option Word64) := []
  /-- KEY_DATA or KSHARE words written, default none. R120, R129 (05). Reset unwritten. -/
  keyData : Tbl (Option Word64) := []
  /-- The key that the enrolment under way brings, as the key loader took it from KSHARE. R108 (05), R291 (12). Reset none. -/
  newKey : List Byte := []
  /-- BLOB_OUT0–6 with the slot that exported it (owner). R308 (13). Reset zero. -/
  blobOut : Option (Nat × List Byte) := none
  /-- Jobs running, in the order of their start, and results unread, in the order of their storing. R249 (11). Reset none. -/
  jobs : List Job := []
  /-- Next job SEQ, 13 bits. R249 (11). Reset 0: DESIGN CHOICE (log entry 9). -/
  jobSeq : Nat := 0
deriving DecidableEq, Repr

/-- What the command that executes waits for, with what it needs to end (R247, R263). -/
inductive Wait where
  /-- The sweep of a tenant reset. R272 (12). -/
  | sweep (t old : Nat)
  /-- A vault record, then KEK load: tenant × 16 + slot, record, response RESULT. R278 (12). -/
  | kekLoad (idx source : Nat) (record : List Byte) (result : Nat)
  /-- A vault erase record. R280 (12). -/
  | kekErase (idx : Nat) (result : Nat)
  /-- The record of a dual-control KEK load. R130 (05). -/
  | dualKek (idx : Nat) (record : List Byte) (result : Nat) (kcv : List Byte)
  /-- The records of a GTK load: the first is not yet verified, or the second. R457 (20). -/
  | dualGtk (first : Bool) (epoch : Nat) (blob record : List Byte) (result : Nat) (kcv : List Byte)
  /-- The record of an enrolment: officer, RESULT. R291 (12). -/
  | enrol (o : Nat) (result : Nat)
  /-- The group record of a commit or a leave, and the end of the command's bound, µs. R306, R309 (13). -/
  | group (desc : List Byte) (leave : Bool) (limit : Nat)
  /-- A slot change within the command's bound: the limit, µs. R285, R306, R309 (12, 13). -/
  | slotChange (limit : Nat) (grouped : Bool)
  /-- The flush of the recorder: the halves still to be verified. R313 (13). -/
  | flush (halves : Nat)
deriving DecidableEq, Repr

/-- The command that executes (R248, 11). -/
structure Executing where
  /-- Mailbox. R248 (11). -/
  mb : Nat
  /-- Slot. R242 (11). -/
  slot : Nat
  /-- What it waits for. R247 (11). -/
  wait : Wait
  /-- The challenge it consumed when its response has an RMAC, and whether the key loader forms that under the key which
  the enrolment brings, in place of the officer's register. R252, R254 (11), R291 (12). -/
  chal : Option (List Byte × Bool)
  /-- CCOUNT of its response. R245 (11). -/
  ccount : Nat
  /-- HOST_RST_N discarded its response. R250 (11). -/
  dropped : Bool
deriving DecidableEq, Repr

/-! ### Faults -/

/-- What the collector keeps of a source (R344, R347). -/
structure FaultSrc where
  /-- SEQ of the last message formed, 8 bits. R344 (15). Reset 0: DESIGN CHOICE (log entry 10). -/
  seq : Nat := 0
  /-- SEQ of the last message delivered, 8 bits. R344 (15). Reset 0: DESIGN CHOICE (log entry 10). -/
  seen : Nat := 0
  /-- REPEAT, 16 bits. R344 (15). Reset 0. -/
  rep : Nat := 0
  /-- KIND of the last message. R350 (15). Reset 0. -/
  kind : Nat := 0
  /-- CONTEXT of the last message. R350 (15). Reset 0. -/
  ctx : BitVec 32 := 0
  /-- The last message was consequential. R314 (13). Reset 0. -/
  conseq : Bool := false
  /-- Arrival, µs, of the last message of each counted kind. R347 (15). Reset none. -/
  counted : List (Nat × Nat) := []
  /-- Pending register of NOTE kinds: KIND, CONTEXT, SEQ. R344 (15). Reset none. -/
  pendNote : Option (Nat × BitVec 32 × Nat) := none
  /-- Pending register of the other kinds. R344 (15). Reset none. -/
  pendOther : Option (Nat × BitVec 32 × Nat) := none
deriving DecidableEq, Repr

/-- What the collector keeps of a sticky index (R346, R348). -/
structure Sticky where
  /-- The sticky bit. R350 (15). Reset 0. -/
  bit : Bool := false
  /-- Its message caused a HALT or ZEROIZE reaction. R339 (14). Reset 0. -/
  locked : Bool := false
  /-- Severity set by settings or command, in place of Table 15.5. R348 (15). Reset none. -/
  sev : Option Nat := none
deriving DecidableEq, Repr

/-- States of a unit in the unit state table (R316, R376). -/
inductive UState where
  | active
  | spare
  | fenced
  | down
deriving DecidableEq, Repr

/-- One unit of levels 4 and 5 in the live table (R376, 16). -/
structure UnitSt where
  /-- LIVE. R376 (16). Reset ACTIVE, the last slice of a full set SPARE. -/
  live : UState := .active
  /-- MIRROR. R377 (16). Reset as LIVE. -/
  mirror : UState := .active
  /-- SGEN of the live table, 16 bits. R376 (16). Reset 0: DESIGN CHOICE (log entry 11). -/
  sgen : Nat := 0
  /-- SGEN of the mirror. R378 (16). Reset 0: DESIGN CHOICE (log entry 11). -/
  msgen : Nat := 0
  /-- Fence cause. R316 (13). Reset 0. -/
  cause : Nat := 0
  /-- Being reset. R352 (15). Reset false. -/
  resetting : Bool := false
  /-- A fence waits for the reset to end: its cause. R353 (15). Reset none. -/
  fenceNext : Option Nat := none
  /-- Times, µs, of the resets ordered within the last second. R359 (15). Reset none. -/
  resets : List Nat := []
  /-- The settle window is open; its end, µs/4, when it runs out. R358 (15). Reset closed. -/
  settle : Bool := false
  /-- Start of the settle interval, core cycles. R358 (15). Reset none. -/
  settleFrom : Option Nat := none
  /-- Cycle of the last known-answer test. R367 (16). Reset 0. -/
  katAt : Nat := 0
deriving DecidableEq, Repr

/-- The fault collector and the device's reaction (15). -/
structure Faults where
  /-- Sources. R345 (15). Reset defaults. -/
  srcs : Tbl FaultSrc := []
  /-- Sticky indices. R346 (15). Reset defaults. -/
  sticky : Tbl Sticky := []
  /-- The fault network: sources with a message on the way, and whether it is of a NOTE kind. R343 (15). Reset empty. -/
  net : List (Nat × Bool) := []
  /-- FAULT_LAST, 64 bits. R342 (14). Reset 0. -/
  last : Word64 := 0
  /-- Live unit state table, default ACTIVE. R376 (16). -/
  units : Tbl UnitSt := []
  /-- SETTLE in 0.25 µs. R318 (13). Reset 8. -/
  settle : Nat := 8
  /-- REPLACE_LEVEL. R318 (13). Reset 960. -/
  replaceLevel : Nat := 960
  /-- REPLACE_N asserted. R375 (16). Reset 0. -/
  replace : Bool := false
  /-- Reaction in force: 0 none, 1 HALT, 2 ZEROIZE. R355, R356 (15). Reset 0. -/
  react : Nat := 0
  /-- Causing source of the reaction. R134 (05). Reset 0. -/
  cause : Nat := 0
  /-- Cycle of the HALT. R355 (15). Reset 0. -/
  haltAt : Nat := 0
  /-- Egress ports may still drive closing flits. R355 (15). Reset false. -/
  closing : Bool := false
  /-- The physical sweep runs. R134 (05). Reset false. -/
  sweeping : Bool := false
  /-- The HALT is that of R385, which writes no OTP record. R385 (17). Reset false. -/
  quiet : Bool := false
  /-- ATT_EN of the fault page. R336 (14). Reset 0. -/
  attEn : Nat := 0
  /-- ATT_PEND of the fault page. R336 (14). Reset 0. -/
  attPend : Nat := 0
deriving DecidableEq, Repr

/-! ### Recorder, random unit, firmware -/

/-- The recorder (18). -/
structure Recorder where
  /-- The filling half, oldest first, at most 32. R411 (18). Reset empty. -/
  filling : List Pip := []
  /-- The half handed to flash, oldest first. R411 (18). Reset empty. -/
  handed : List Pip := []
  /-- Pips of the handed half not yet verified at their position. R414 (18). Reset 0. -/
  left : Nat := 0
  /-- The write of the Pip under way failed on a device: its position is spoiled. R414 (18). Reset false. -/
  spoil : Bool := false
  /-- The filling half waits for the other half's write. R412 (18). Reset false. -/
  waiting : Bool := false
  /-- Cycle in which the filling half's first Pip entered. R412 (18). Reset 0. -/
  since : Nat := 0
  /-- Lost NOTE Pips. R411 (18). Reset 0. -/
  lostNote : Nat := 0
  /-- Lost Pips of REPAIR or above. R411 (18). Reset 0. -/
  lostRepair : Nat := 0
  /-- Write position. R414 (18). Reset 0. -/
  wpos : Nat := 0
  /-- Positions below it that are known as spoiled. R414 (18). Reset none. -/
  spoiled : List Nat := []
  /-- FULL. R416 (18). Reset 0. -/
  full : Bool := false
  /-- Clear job: its session, and its stage: 1 the halves drain, 2 sector 0 is erased, 3 the Pips of step 4 are written, 4
  later sectors are erased. R418 (18). Reset none. -/
  clearing : Option (Nat × Nat) := none
  /-- The clear job keeps the recorder from writing. R418 (18). Reset false. -/
  paused : Bool := false
  /-- Pips of the handed half that follow those of step 4 of a clear. R418 (18). Reset 0. -/
  behind : Nat := 0
  /-- Positions noted in step 2 of a clear. R418 (18). Reset 0. -/
  noted : Nat := 0
  /-- EVT_CURSOR. Table 14.19 (14). Reset 0. -/
  cursor : Nat := 0
  /-- LOADING. Table 14.19 (14). Reset 0. -/
  loading : Bool := false
  /-- EVT_WINDOW, 64 Pips. R338 (14). Reset 0. -/
  window : List Pip := []
  /-- EV_OTP_FULL recorded this boot. R395 (17). Reset false. -/
  otpFull : Bool := false
  /-- ATT_EN of the event window page. R336 (14). Reset 0. -/
  attEn : Nat := 0
  /-- ATT_PEND of the event window page. R336 (14). Reset 0. -/
  attPend : Nat := 0
deriving DecidableEq, Repr

/-- One Sloe source (R399, R400, 17). -/
structure Sloe where
  /-- Healthy. R399 (17). Reset false. -/
  healthy : Bool := false
  /-- Failures since PWR_OK. R400 (17). Reset 0. -/
  fails : Nat := 0
  /-- A test that has failed and is not yet acted on: true the Adaptive Proportion Test. R400 (17). Reset none. -/
  due : Option Bool := none
  /-- Samples taken. R398 (17). Reset 0. -/
  samples : Nat := 0
  /-- Octets read from its crossing queue, conditioned or discarded. R19 (01), R401 (17). Reset 0. -/
  used : Nat := 0
  /-- The sample before. R399 (17). Reset 0. -/
  last : Bool := false
  /-- Length of the run of equal samples that it ends, for the Repetition Count Test. R399 (17). Reset 0. -/
  run : Nat := 0
  /-- First sample of the Adaptive Proportion window. R399 (17). Reset 0. -/
  first : Bool := false
  /-- Samples of the window so far. R399 (17). Reset 0. -/
  place : Nat := 0
  /-- Samples of the window equal to its first. R399 (17). Reset 0. -/
  same : Nat := 0
  /-- Samples that have passed both tests since the last failure, to 4,096. R399, R400 (17). Reset 0. -/
  passed : Nat := 0
deriving DecidableEq, Repr

/-- The random unit (17). -/
structure Rng where
  /-- SEEDED. R403 (17). Reset 0. -/
  seeded : Bool := false
  /-- FAILED. R400 (17). Reset 0. -/
  failed : Bool := false
  /-- Sources S0–S7, default not healthy. R399 (17). -/
  sloes : Tbl Sloe := []
  /-- DRBG Key, 32 bytes. R402 (17). Reset 0. -/
  key : List Byte := []
  /-- DRBG V, 16 bytes. R402 (17). Reset 0. -/
  v : List Byte := []
  /-- Generate calls since the reseed. R402 (17). Reset 0. -/
  calls : Nat := 0
  /-- Time of the last reseed, µs. R402 (17). Reset 0. -/
  reseedAt : Nat := 0
  /-- Own: tells the raw bits of this power-on from those of others; free value counter. DESIGN CHOICE (log entry 4). Reset
  0. -/
  powerOn : Nat := 0
  /-- The conditioning block in progress: the octets taken for it so far. R400, R401 (17). Reset none. -/
  block : List Byte := []
  /-- Conditioned blocks gathered for the next seeding or reseed, three at most. R402 (17). Reset none. -/
  blocks : List (List Byte) := []
  /-- The source that the round robin of the conditioner comes to next. R401 (17). Reset 0: DESIGN CHOICE (log entry 4). -/
  turn : Nat := 0
  /-- The unit's known-answer test has passed since it last had to seed, and has not failed since. R400, R403 (17). Reset
  false. -/
  katOk : Bool := false
  /-- Time of its last failed known-answer test, µs. R400 (17). Reset none. -/
  katFailAt : Option Nat := none
  /-- Rind has taken its mesh seeds since PWR_OK. R386 (17). Reset false. -/
  meshSeeded : Bool := false
  /-- RNG_DATA is not served until power is cycled. R405 (17). Reset false. -/
  noData : Bool := false
deriving DecidableEq, Repr

/-- States of an image slot or settings copy (Table 13.11, 13). -/
inductive ImgState where
  | empty
  | staging
  | verified
  | invalid
  | running
deriving DecidableEq, Repr

/-- What is known of an image slot or settings copy (R325, 13). -/
structure Img where
  /-- State. R325 (13). Reset EMPTY. -/
  st : ImgState := .empty
  /-- RELEASE, or the settings' SEQ. R325 (13). Reset 0. -/
  release : Nat := 0
  /-- SVN. R325 (13). Reset 0. -/
  svn : Nat := 0
  /-- Handover block version written. R433 (19). Reset 0. -/
  hbOut : Nat := 0
  /-- Lowest handover block version read. R433 (19). Reset 0. -/
  hbMin : Nat := 0
deriving DecidableEq, Repr

/-- A flash job of a staging session (R320, R321, 13). -/
structure StageJob where
  /-- Its handle. R249 (11). -/
  handle : BitVec 32
  /-- A write, else the erase of the target. R320, R321 (13). -/
  writing : Bool
  /-- First device address it works on. R320, R321 (13). -/
  lo : Nat
  /-- One past the last. R320, R321 (13). -/
  hi : Nat
deriving DecidableEq, Repr

/-- A staging session (R319, 13). -/
structure Stage where
  /-- Mailbox that opened it. R319 (13). -/
  mb : Nat
  /-- TARGET. R320 (13). -/
  target : Nat
  /-- Image slot or settings copy staged. R320 (13). -/
  which : Nat
  /-- LENGTH. R320 (13). -/
  length : Nat
  /-- Spans written: OFFSET, COUNT. R321 (13). -/
  spans : List (Nat × Nat)
  /-- Jobs that run: the erase and the writes. R320, R321 (13). -/
  jobs : List StageJob
deriving DecidableEq, Repr

/-- Why a vault record is written: what its verification continues. -/
inductive VaultWhy where
  /-- The command that executes waits for it. R113 (05). -/
  | command
  /-- The purge of a tenant: KEK index. R271 (12). -/
  | purge (idx : Nat)
  /-- A copy of a live record. R432 (19). -/
  | compact
deriving DecidableEq, Repr

/-- A vault record to be written (Table 5.4, 05), with what each device has reported. -/
structure VaultReq where
  /-- Own: what its verification continues. R112, R113 (05). -/
  why : VaultWhy
  /-- Type. Table 5.4 (05). -/
  type : Nat
  /-- Index. Table 5.4 (05). -/
  index : Nat
  /-- The type being erased, of an erase record. Table 5.4 (05). -/
  erased : Nat
  /-- The 56-byte blob; empty for an erase record. Table 5.4 (05). -/
  blob : List Byte
  /-- Its write has been requested of the controllers. R432 (19). -/
  sent : Bool := false
  /-- Sequence that its write carries. R112 (05). -/
  seq : Nat := 0
  /-- Device 0's read-back. R113 (05). -/
  d0 : Option Bool := none
  /-- Device 1's read-back. R113 (05). -/
  d1 : Option Bool := none
deriving DecidableEq, Repr

/-- The handover block (R447, 19): what the old firmware hands to the new. Its bytes are not defined (log entry 6). -/
structure HandoverBlock where
  /-- Version that the old image writes. R433 (19). -/
  version : Nat
  /-- Job tables with their results, by mailbox page. R447 (19). -/
  jobs : List (Nat × List Job)
  /-- Dual-control session. R447 (19). -/
  session : Session
  /-- Ends of the enrolment allowances of officers A and B, µs. R447, R449 (19). -/
  allow : Option Nat × Option Nat
  /-- Staging session. R447 (19). -/
  stage : Option Stage
  /-- Clusters whose DISPATCH_MAP rewrite is pending. R447 (19), R87 (04). -/
  rewrite : List Nat
deriving DecidableEq, Repr

/-- A bank of Quince memory, 4 MiB (R435, R440, 19). -/
structure QuinceBank where
  /-- Entries of 64 bytes that have been written; another reads as zeros with a poison flag (R441). R21 (01), R440 (19). Reset
  unwritten. -/
  mem : Tbl (Option (BitVec 512)) := []
  /-- Bytes from offset 0 that the lock keeps from being written. R435 (19). Reset 0. -/
  lock : Nat := 0
  /-- The bank is wholly unwritable. R447 (19). Reset false. -/
  closed : Bool := false
  /-- Handover block in the handover area. R435, R447 (19). Reset none. -/
  block : Option HandoverBlock := none
deriving DecidableEq, Repr

/-- Firmware, settings and staging (19). -/
structure Fw where
  /-- No image verified: the boot ROM serves. R443 (19). Reset false. -/
  rom : Bool := false
  /-- RUNNING. R325 (13). Reset 0. -/
  running : Nat := 0
  /-- Memory bank Quince executes from. R435 (19). Reset 0: DESIGN CHOICE (log entry 167). -/
  bank : Nat := 0
  /-- Memory bank 0. R21 (01), R435 (19). -/
  bank0 : QuinceBank := {}
  /-- Memory bank 1. R21 (01), R435 (19). -/
  bank1 : QuinceBank := {}
  /-- BOOTSLOT. R430 (19). Reset 0. -/
  bootSlot : Nat := 0
  /-- SETCOPY of the boot record. R430 (19). Reset 0. -/
  setCopy : Nat := 0
  /-- VAULTGEN. R430 (19). Reset 0. -/
  vaultGen : Nat := 0
  /-- Vault erase pending or running. R432 (19). Reset false. -/
  vaultErase : Bool := false
  /-- Image slot A. R325 (13). -/
  imgA : Img := {}
  /-- Image slot B. R325 (13). -/
  imgB : Img := {}
  /-- Settings copy 0. R325 (13). -/
  set0 : Img := {}
  /-- Settings copy 1. R325 (13). -/
  set1 : Img := {}
  /-- Copy of settings in force, none before or without any. R325 (13). Reset none. -/
  setInUse : Option Nat := none
  /-- TLV area of the settings in force. R437 (19). Reset empty. -/
  tlvs : List Byte := []
  /-- Owner key block in force, 2,752 bytes. R437 (19). Reset empty. -/
  ownerKeys : List Byte := []
  /-- DUAL_WINDOW, minutes. R128 (05). Reset 10. -/
  dualWindow : Nat := 10
  /-- Staging session. R319 (13). Reset none. -/
  stage : Option Stage := none
  /-- Staging window words, default 0. R341 (14). Reset 0. -/
  window : Tbl Word64 := []
  /-- XN_FW_ACTIVATE job: its handle and target slot. R447 (19). Reset none. -/
  activate : Option (BitVec 32 × Nat) := none
  /-- HANDOVER. R447 (19). Reset 0. -/
  handover : Bool := false
  /-- Start of the handover, cycle. R448 (19). Reset 0. -/
  handoverAt : Nat := 0
  /-- The mailbox part of a HOST_RST_N released during the handover waits for ready. R449 (19). Reset false. -/
  mbReset : Bool := false
  /-- Step 5 waits for PFAIL_N. R449 (19). Reset none. -/
  bootRecDue : Bool := false
  /-- Group state: 0 NONE, 1 COMMITTING, 2 COMMITTED. R307 (13). Reset 0. -/
  group : Nat := 0
  /-- MATCH. R306 (13). Reset 0. -/
  matchBits : Nat := 0
  /-- Committed descriptor, 256 bytes. R452 (20). Reset none. -/
  desc : List Byte := []
  /-- A previous epoch exists. R307 (13). Reset false. -/
  hasPrev : Bool := false
  /-- Staged PART 0. R305 (13). Reset none. -/
  part0 : Option (List Byte) := none
  /-- Staged PART 1. R305 (13). Reset none. -/
  part1 : Option (List Byte) := none
  /-- Job of a slot change: handle and opcode. R285, R306, R309 (12, 13). Reset none. -/
  slotJob : Option (BitVec 32 × Nat) := none
  /-- Job of a group commit or leave whose record is not yet verified: handle, opcode, descriptor, leave. R306, R309 (13).
  Reset none. -/
  groupJob : Option (BitVec 32 × Nat × List Byte × Bool) := none
  /-- Job of the log clear. R287 (12). Reset none. -/
  clearJob : Option (BitVec 32) := none
  /-- Next vault write position, sector × 512 + position. R432 (19). Reset 0. -/
  vaultPos : Nat := 0
  /-- Highest vault sequence. R112 (05). Reset 0. -/
  vaultSeq : Nat := 0
  /-- Vault records to be written, the one under way first. R432 (19). Reset none. -/
  vaultQ : List VaultReq := []
  /-- Vault sector that compaction empties. R432 (19). Reset none. -/
  compacting : Option Nat := none
  /-- Sequence of the latest boot record. R430 (19). Reset 0. -/
  bootSeq : Nat := 0
  /-- Sequence of the latest group record. R431 (19). Reset 0. -/
  groupSeq : Nat := 0
deriving DecidableEq, Repr

/-! ### Flash -/

/-- The requesters of a controller, in their priority (R29, 01). -/
inductive FlashOwner where
  | damson
  | recorder
  | quince
deriving DecidableEq, Repr

/-- Why a flash operation runs: what its end continues. -/
inductive FlashTag where
  | lease
  | pip
  | vault
  | boot
  | group
  | stagePage
  | stageErase
  | compact
  | vaultErase
  | journalErase
  | logErase
  | mirror
  | repair
deriving DecidableEq, Repr

/-- The two-sector rings of a device (R424). -/
inductive FlashRing where
  | intent
  | boot
  | group
deriving DecidableEq, Repr

/-- How far an erase has come (R428): its intent record is to be written, its sector erased, its completion record written. -/
inductive ErasePhase where
  | intent
  | erase
  | completion
deriving DecidableEq, Repr

/-- A flash operation (R29, R426, 19): program bytes at an address, or erase the sector at it. -/
structure FlashOp where
  /-- Its requester. R29 (01). -/
  owner : FlashOwner
  /-- Own: what its end continues. R426 (19). -/
  tag : FlashTag
  /-- Byte address. R422 (19). -/
  addr : Nat
  /-- Bytes to program; none is an erase. R419 (19). -/
  bytes : Option (List Byte)
  /-- What an erase does next. R428 (19). -/
  phase : ErasePhase := .intent
  /-- Erases of a sector that failed their blank check. R421 (19). -/
  tries : Nat := 0
deriving DecidableEq, Repr

/-- One xSPI controller (19). The contents of its device are in the state beside the chip. -/
structure Xspi where
  /-- The device is in service. R425 (19). Reset false. -/
  inService : Bool := false
  /-- The device answered discovery. R420 (19). Reset false. -/
  answers : Bool := false
  /-- Operation on the bus. R29 (01). Reset none. -/
  bus : Option FlashOp := none
  /-- Operations asked of it and waiting, in request order: those in its 4 KiB crossing queue, and behind them those that a
  stalled requester holds (log entry 163). R19, R29 (01). Reset none. -/
  queue : List FlashOp := []
  /-- Cycle in which the operation on the bus started. R421 (19). Reset 0. -/
  busSince : Nat := 0
  /-- Times, µs, of failed program read-backs within 1 s. R421 (19). Reset none. -/
  badProgs : List Nat := []
  /-- Mirror recovery runs; the next sector. R427 (19). Reset none. -/
  recovery : Option Nat := none
  /-- Next position of the erase intent ring. R424, R428 (19). Reset 0. -/
  intentPos : Nat := 0
  /-- Sequence of the latest intent record. R428 (19). Reset 0. -/
  intentSeq : Nat := 0
  /-- Sector other than a journal or log sector whose interrupted erase is repaired after READY. R429 (19). Reset none. -/
  repairAt : Option Nat := none
  /-- Next position of the boot record ring. R424 (19). Reset 0. -/
  bootPos : Nat := 0
  /-- Next position of the group record ring. R424 (19). Reset 0. -/
  groupPos : Nat := 0
  /-- Rings whose sector at the write position has been erased since the ring came to it. R424 (19). Reset none. -/
  erased : List FlashRing := []
deriving DecidableEq, Repr

/-! ### Always-on domain and OTP -/

/-- One entry of the evidence latch (R396, 17). -/
structure Evidence where
  /-- TYPE. Table 17.5 (17). -/
  type : Nat
  /-- SEVERITY. Table 17.5 (17). -/
  severity : Nat
  /-- SOURCE. Table 17.5 (17). -/
  source : Nat
  /-- TICK. Table 17.5 (17). -/
  tick : Nat
  /-- READING. Table 17.6 (17). -/
  reading : BitVec 64
  /-- DETAIL. Table 17.5 (17). -/
  detail : BitVec 128
  /-- USEC of the event. Table 17.5 (17). -/
  usec : Nat
  /-- FROMAON: taken from the evidence latch. Table 17.5 (17). -/
  fromAon : Bool := false
  /-- STEP: the tamper counter advanced for it. Table 17.5 (17). -/
  step : Bool := false
deriving DecidableEq, Repr

/-- The sampler of a mesh pair or tamper input: its last three ticks. -/
structure Sampler where
  /-- What the mesh driver drove in the six half-ticks, oldest in bit 5. R386 (17). Reset 0. -/
  driven : BitVec 6 := 0
  /-- What the comparator saw in them; for a tamper input bits 2:0 are its samples. R380, R386 (17). Reset 0. -/
  seen : BitVec 6 := 0
  /-- Consecutive ticks passed while TRIPPED, to 2^20. R388 (17). Reset 0. -/
  passed : Nat := 0
deriving DecidableEq, Repr

/-- Rind's always-on domain (R380, 17). -/
structure Aon where
  /-- The always-on supply is present. R380 (17). Reset present: DESIGN CHOICE (log entry 13). -/
  present : Bool := true
  /-- TRIPPED latches of sources 11–23, bit i. R388 (17). Reset 0. -/
  tripped : BitVec 64 := 0
  /-- Evidence latch, oldest first, at most 8. R396 (17). Reset empty. -/
  latch : List Evidence := []
  /-- Trips lost to a full latch, saturating at 63. R396 (17). Reset 0. -/
  lost : Nat := 0
  /-- Kill-pending latch. R135 (05). Reset 0. -/
  killPending : Bool := false
  /-- Lease shadow, 44 bits. R148 (06). Reset 0. -/
  shadow : Nat := 0
  /-- Its bitwise inverse, 44 bits. R148 (06). Reset all ones. -/
  shadowInv : Nat := 2 ^ 44 - 1
  /-- VALID. R148 (06). Reset 0. -/
  shadowValid : Bool := false
  /-- AON copy of RIND_FUSED. R380 (17). Reset 0. -/
  fused : BitVec 64 := 0
  /-- Tick counter, 56 bits. R380 (17). Reset 0. -/
  tick : Nat := 0
  /-- The start of the supply is not yet in the log. R395 (17). Reset true. -/
  started : Bool := true
  /-- LFSR states of the mesh pairs, default by R386. R386 (17). -/
  mesh : Tbl (BitVec 31) := []
  /-- Samplers of sources 11–23, default no sample. R380 (17). Reset 0. -/
  samplers : Tbl Sampler := []
  /-- Zeroize is asserted toward CORE. R20 (01). Reset 0. -/
  zeroize : Bool := false
deriving DecidableEq, Repr

/-- OTP (R135, R150, R269, R390, R393, R394, R436, R438). Bits are only ever programmed. -/
structure Otp where
  /-- Kill fuses of DS0–DS3, 4 bits. R135 (05). Reset unprogrammed. -/
  killed : BitVec 4 := 0
  /-- JOURNAL_GEN bits, 64. R150 (06). Reset unprogrammed. -/
  journalGen : Nat := 0
  /-- Security-version steps, 0–64. R436 (19). Reset unprogrammed. -/
  svn : Nat := 0
  /-- Factory lock fuse. R269 (12). Reset unprogrammed. -/
  locked : Bool := false
  /-- Source-disable fuses, 64 bits. R390 (17). Reset unprogrammed. -/
  disabled : BitVec 64 := 0
  /-- Tamper counter, bits programmed of 2,048. R393 (17). Reset 0. -/
  tamper : Nat := 0
  /-- Tamper log, 512 slots of 64 bytes, in slot order; none is a spoiled slot. R394 (17). Reset blank. -/
  log : List (Option (BitVec 512)) := []
  /-- Records kept for the next boot. R395 (17). Reset none. -/
  owed : List Evidence := []
  /-- Steps of the tamper counter kept for the next boot. R393 (17). Reset 0. -/
  owedSteps : Nat := 0
  /-- Own: OTP programmings tried so far; the free value counter of their outcome. DESIGN CHOICE (log entry 20). Reset
  0. -/
  tries : Nat := 0
  /-- Owner roots, 48 bytes each, in order. R438 (19). Reset none. -/
  roots : List (List Byte) := []
deriving DecidableEq, Repr

/-! ### Control port and Quince -/

/-- What a stalled control port access waits for (R328, 14). -/
inductive CtlStall where
  /-- RNG_DATA, since this cycle. R337 (14). -/
  | rng (since : Nat)
  /-- EVT_WINDOW word. R338 (14). -/
  | window (word : Nat)
  /-- A staged register write. R330 (14). -/
  | staged (off : Nat) (data : Word64)
deriving DecidableEq, Repr

/-- The control port (R328, 14). -/
structure Ctl where
  /-- Last response was an error. R328 (14). Reset 0. -/
  err : Bool := false
  /-- Read data of the last response. R328 (14). Reset 0. -/
  data : Word64 := 0
  /-- Stalled access. R328 (14). Reset none. -/
  stall : Option CtlStall := none
  /-- Accesses that wait behind it, at most 16, with their offsets in the window. R19, R328 (01, 14). Reset none. -/
  behind : List (Nat × Access) := []
  /-- HOST_RST_N is low. R475 (21). Reset high. -/
  hostReset : Bool := false
  /-- A HOST_RST_N released before B9 whose reach is still due. R475 (21). Reset false. -/
  reachDue : Bool := false
  /-- Latched fetch descriptor. R333 (14). Reset 0. -/
  fetch : BitVec 256 := 0
  /-- Attention queue, at most 64; the head is on ATT_. R256 (11). Reset empty. -/
  att : List (Nat × Nat) := []
  /-- Tenant mailbox that stands first in the attention order. R257 (11). Reset 0. -/
  attNext : Nat := 0
deriving DecidableEq, Repr

/-- Quince's service (R248, 11). -/
structure Quince where
  /-- The command that executes. R248 (11). Reset none. -/
  exec : Option Executing := none
  /-- Privileged mailbox (0 owner … 3 factory) that stands first. R248 (11). Reset 0: DESIGN CHOICE (log entry 14). -/
  privNext : Nat := 0
  /-- Tenant that stands first. R248 (11). Reset 0: DESIGN CHOICE (log entry 14). -/
  tenNext : Nat := 0
  /-- Consecutive privileged commands. R248 (11). Reset 0. -/
  privRun : Nat := 0
  /-- COMMIT_BUSY. Table 14.6 (14). Reset 0. -/
  commitBusy : Bool := false
  /-- RESULT of the last commit. Table 14.6 (14). Reset 0. -/
  commitResult : Nat := 0
  /-- Staged copies of dirty registers, by global-page offset. R330 (14). Reset none. -/
  staged : Tbl Word64 := []
  /-- Offsets marked dirty. R330 (14). Reset none. -/
  dirty : List Nat := []
  /-- Clusters whose DISPATCH_MAP rewrite is due. R87 (04). Reset none. -/
  rewrite : List Nat := []
  /-- Line regions whose automatic re-encryption could not start, with the last try, µs. R218, R219 (09). Reset none. -/
  noKey : List (Nat × Nat) := []
  /-- The VITAL regions are still to be written: two generations were live when their keys were drawn. R184, R221 (08, 09).
  Reset false. -/
  vitalsDue : Bool := false
deriving DecidableEq, Repr

/-- Everything that PWR_OK takes away. -/
structure Chip where
  /-- PWR_OK is high. R467 (21). Reset true. -/
  powered : Bool := true
  /-- DSTATE: 0 BOOTING, 1 READY, 2 HALTED, 3 ZEROIZED. Table 14.5 (14). Reset 0. -/
  dstate : Nat := 0
  /-- Boot steps B1 to B8 have run. R442 (19). Reset false. -/
  booted : Bool := false
  /-- CORE_MUL in force, 16–21. R468 (21). Reset 20. -/
  coreMul : Nat := 20
  /-- Core cycles since PWR_OK. R415 (18). Reset 0. -/
  cycle : Nat := 0
  /-- Boot count, 16 bits. R415 (18). Reset 0: DESIGN CHOICE (log entry 15). -/
  boots : Nat := 0
  /-- PFAIL_N asserted after its deglitch. R445 (19). Reset 0. -/
  pfail : Bool := false
  /-- Ports P0–P63. 02. -/
  ports : Tbl Port := []
  /-- Clusters C0–C63. 04. -/
  clusters : Tbl Cluster := []
  /-- Keys. 05. -/
  keys : Keys := {}
  /-- Damson. 06. -/
  damson : Damson := {}
  /-- Line ports L0–L31. 08. -/
  lines : Tbl LinePort := []
  /-- Sweeps by region. R191 (08). -/
  sweeps : Tbl Sweep := []
  /-- The inverted copy of SWEEP and SSTATE of each region, at bits 47:2 and 1:0. R178, R391 (08, 17). Reset all ones. -/
  sweepsInv : Tbl (BitVec 48) := []
  /-- Line jobs 0–255, default none. R213 (09). Reset none. -/
  ljobs : Tbl (Option LineJob) := []
  /-- Live ranges 0–4,095, default none. R203 (09). Reset none. -/
  ranges : Tbl (Option Range) := []
  /-- Job that stands first for a window. R205 (09). Reset 0: DESIGN CHOICE (log entry 16). -/
  rangeNext : Nat := 0
  /-- Fetch queue: job and descriptor, oldest first, at most 256. R206, R333 (09, 14). Reset empty. -/
  fetchQ : List (Nat × BitVec 256) := []
  /-- ATT_EN of the global page. R336 (14). Reset 0. -/
  brambleEn : Nat := 0
  /-- ATT_PEND of the global page. R336 (14). Reset 0. -/
  bramblePend : Nat := 0
  /-- Configuration in force at admission. R222 (09). -/
  cfg : Cfg := {}
  /-- Copy of the older live generation. R222 (09). -/
  cfgOld : Cfg := {}
  /-- ADMITGEN, 16 bits. R222 (09). Reset 0. -/
  admitGen : Nat := 0
  /-- OLDGEN, 16 bits. R222 (09). Reset 0. -/
  oldGen : Nat := 0
  /-- LIVE2. R223 (09). Reset 0. -/
  live2 : Bool := false
  /-- Tenants 0–1,023. R226 (10). -/
  tenants : Tbl Tenant := []
  /-- Mailboxes 0–1,027. R239 (11). -/
  mbs : Tbl Mailbox := []
  /-- Quince. R248 (11). -/
  quince : Quince := {}
  /-- Faults. 15. -/
  faults : Faults := {}
  /-- Recorder. 18. -/
  recorder : Recorder := {}
  /-- Random unit. 17. -/
  rng : Rng := {}
  /-- Firmware. 19. -/
  fw : Fw := {}
  /-- xSPI controller 0. R29, R419 (01, 19). -/
  xspi0 : Xspi := {}
  /-- xSPI controller 1. R29, R419 (01, 19). -/
  xspi1 : Xspi := {}
  /-- Control port. 14. -/
  ctl : Ctl := {}
  /-- PORT_TIMERS.FLIT_GAP. Table 14.14 (14). Reset 8. -/
  flitGap : Nat := 8
  /-- RNG_STALL_MAX, µs. Table 14.14 (14). Reset 100. -/
  rngStallMax : Nat := 100
  /-- Start of the authentication interval, µs. R238 (10). Reset 0. -/
  authSince : Nat := 0
  /-- Last EV_TEMP_WARN of each site, µs. R383 (17). Reset none. -/
  tempWarned : Tbl (Option Nat) := []
  /-- Monitors that have tripped this power-on. R388 (17). Reset 0. -/
  trippedOnce : BitVec 64 := 0
  /-- A kill was programmed at this boot. R397 (17). Reset false. -/
  killedAtBoot : Bool := false
  /-- Own: the admission order of the next message, over all ports. R89 (04). Reset 0. -/
  admissions : Nat := 0
  /-- Own: counter of free values. DESIGN CHOICE (log entry 7). Reset 0. -/
  free : Nat := 0
deriving DecidableEq, Repr

/-- The whole machine. -/
structure State where
  /-- The chip. -/
  chip : Chip := {}
  /-- Rind's always-on domain. R380 (17). -/
  aon : Aon := {}
  /-- OTP. -/
  otp : Otp := {}
  /-- Contents of flash device 0: 256-byte pages by page number, default all ones. R419 (19). Reset blank: DESIGN
  CHOICE (log entry 12). -/
  flash0 : Tbl FlitData := []
  /-- Contents of flash device 1, as device 0. R419 (19). Reset blank: DESIGN CHOICE (log entry 12). -/
  flash1 : Tbl FlitData := []
  /-- Own: SOURCE of the KEK that this device loaded last at an index, 1 SHARES or 2 WRAPPED (R110, 05), default 0, none. Reset
  none (log entry 24). -/
  kekSource : Tbl Nat := []
  /-- Commands that wait, first in, first out (own: the block's interface). Reset empty. -/
  pending : List Instr := []
deriving DecidableEq, Repr

/-- The machine right after PWR_OK rises, before the boot steps. -/
def State.reset : State := {}

end Sys2Proof.Machine
end

