-- ==== Sys2Proof/Machine/Ops.lean ====
section
/-! DEFINITION. The named operations every meaning is built from: reading and writing the parts of the state, time, the
registers of the configuration, the recorder buffer (18_records.md), the attention channel (11_mailboxes.md), the queues
of the flash controllers (01_structure.md R29) and draws of the random unit (17_boundary.md). -/

namespace Sys2Proof.Machine

/-- What a command answers. -/
abbrev Out := Host.Outcome State Fault Refusal

/-- A command that acts on the chip alone. Without PWR_OK it changes nothing (log entry 17). -/
def onChip (s : State) (f : Chip → Chip) : Out :=
  .next (if s.chip.powered then { s with chip := f s.chip } else s)

/-- A command that acts beyond the chip. Without PWR_OK it changes nothing (log entry 17). -/
def onState (s : State) (f : State → State) : Out := .next (if s.chip.powered then f s else s)

/-! ### Time -/

/-- Core cycles in one microsecond: f_core is CORE_MUL × 100 MHz (R15, R468). -/
def usCycles (ch : Chip) : Nat := 100 * ch.coreMul

/-- The microsecond counter since PWR_OK (R415). -/
def nowUs (ch : Chip) : Nat := ch.cycle / usCycles ch

/-! ### Parts of the chip -/

def getPort (ch : Chip) (p : Nat) : Port := Tbl.get {} ch.ports p
def setPort (ch : Chip) (p : Nat) (v : Port) : Chip := { ch with ports := Tbl.set {} ch.ports p v }
def modPort (ch : Chip) (p : Nat) (f : Port → Port) : Chip := setPort ch p (f (getPort ch p))

def getCluster (ch : Chip) (c : Nat) : Cluster := Tbl.get {} ch.clusters c
def setCluster (ch : Chip) (c : Nat) (v : Cluster) : Chip := { ch with clusters := Tbl.set {} ch.clusters c v }
def modCluster (ch : Chip) (c : Nat) (f : Cluster → Cluster) : Chip := setCluster ch c (f (getCluster ch c))

def getLine (ch : Chip) (p : Nat) : LinePort := Tbl.get {} ch.lines p
def setLine (ch : Chip) (p : Nat) (v : LinePort) : Chip := { ch with lines := Tbl.set {} ch.lines p v }
def modLine (ch : Chip) (p : Nat) (f : LinePort → LinePort) : Chip := setLine ch p (f (getLine ch p))

def getLane (l : LinePort) (i : Fin 2) : Lane := if i = 0 then l.lane0 else l.lane1
def setLane (l : LinePort) (i : Fin 2) (v : Lane) : LinePort :=
  if i = 0 then { l with lane0 := v } else { l with lane1 := v }

def getMb (ch : Chip) (m : Nat) : Mailbox := Tbl.get {} ch.mbs m
def setMb (ch : Chip) (m : Nat) (v : Mailbox) : Chip := { ch with mbs := Tbl.set {} ch.mbs m v }
def modMb (ch : Chip) (m : Nat) (f : Mailbox → Mailbox) : Chip := setMb ch m (f (getMb ch m))

def getTenant (ch : Chip) (t : Nat) : Tenant := Tbl.get {} ch.tenants t
def setTenant (ch : Chip) (t : Nat) (v : Tenant) : Chip := { ch with tenants := Tbl.set {} ch.tenants t v }
def modTenant (ch : Chip) (t : Nat) (f : Tenant → Tenant) : Chip := setTenant ch t (f (getTenant ch t))

def getRange (ch : Chip) (j : Nat) : Option Range := Tbl.get none ch.ranges j
def setRange (ch : Chip) (j : Nat) (v : Option Range) : Chip := { ch with ranges := Tbl.set none ch.ranges j v }

def getLjob (ch : Chip) (j : Nat) : Option LineJob := Tbl.get none ch.ljobs j
def setLjob (ch : Chip) (j : Nat) (v : Option LineJob) : Chip := { ch with ljobs := Tbl.set none ch.ljobs j v }

def getSweep (ch : Chip) (r : Nat) : Sweep := Tbl.get {} ch.sweeps r
def setSweep (ch : Chip) (r : Nat) (v : Sweep) : Chip :=
  { ch with
    sweeps := Tbl.set {} ch.sweeps r v
    sweepsInv := Tbl.set (BitVec.allOnes 48) ch.sweepsInv r (~~~(BitVec.ofNat 48 (field 2 46 v.bound ||| field 0 2 v.state))) }

/-- Write a region entry with its inverse (R391). -/
def setRegion (c : Cfg) (r : Nat) (v : BitVec 256) : Cfg :=
  { c with regions := Tbl.set 0 c.regions r v, regionsInv := Tbl.set (BitVec.allOnes 256) c.regionsInv r (~~~v) }

/-- Slot descriptor (Table 5.5). -/
def slotDesc (ch : Chip) (k : Nat) : BitVec 256 := Tbl.get 0 ch.keys.desc k
/-- A write of a descriptor writes the inverse of its bits 255:76 with it (R391). -/
def setDesc (ch : Chip) (k : Nat) (d : BitVec 256) : Chip :=
  { ch with keys := { ch.keys with
      desc := Tbl.set 0 ch.keys.desc k d
      descInv := Tbl.set (BitVec.allOnes 180) ch.keys.descInv k (~~~(d.extractLsb' 76 180)) } }

/-- Write every listed descriptor anew. -/
def mapDescs (f : BitVec 256 → BitVec 256) (ch : Chip) : Chip :=
  ch.keys.desc.foldl (fun ch e => setDesc ch e.1 (f e.2)) ch

/-- Line key descriptor (Table 8.4). -/
def lineDesc (ch : Chip) (e : Nat) : BitVec 128 := Tbl.get 0 ch.keys.ldesc e
/-- A write of a line key descriptor writes the inverse of its bits 127:76 with it (R391). -/
def setLineDesc (ch : Chip) (e : Nat) (d : BitVec 128) : Chip :=
  { ch with keys := { ch.keys with
      ldesc := Tbl.set 0 ch.keys.ldesc e d
      ldescInv := Tbl.set (BitVec.allOnes 52) ch.keys.ldescInv e (~~~(d.extractLsb' 76 52)) } }

/-- Write every listed line key descriptor anew. -/
def mapLineDescs (f : BitVec 128 → BitVec 128) (ch : Chip) : Chip :=
  ch.keys.ldesc.foldl (fun ch e => setLineDesc ch e.1 (f e.2)) ch

/-- The configuration copy of a generation (R222). -/
def cfgOf (ch : Chip) (gen : Nat) : Cfg := if gen = ch.admitGen then ch.cfg else ch.cfgOld

/-- A tenant's entry of a configuration. -/
def tenantCfg (c : Cfg) (t : Nat) : TenantCfg := Tbl.get {} c.tenants t

/-- Stripe profile (Table 7.1): VALID, K, M. -/
def profValid (c : Cfg) (p : Nat) : Bool := (Tbl.get (0#32) c.profiles p).getLsbD 31
def profK (c : Cfg) (p : Nat) : Nat := fld (Tbl.get (0#32) c.profiles p) 8 5
def profM (c : Cfg) (p : Nat) : Nat := fld (Tbl.get (0#32) c.profiles p) 0 4

/-- Region entry without its sweep (Table 8.2). -/
def regionOf (c : Cfg) (r : Nat) : BitVec 256 := Tbl.get (0#256) c.regions r

/-- A HALT or ZEROIZE reaction is in force (R355, R356). -/
def halted (ch : Chip) : Bool := ch.faults.react != 0

/-! ### Staged registers (Tables 14.2, 14.10 to 14.15) -/

/-- Offsets within the global page of the staged registers. -/
def stagedOff (off : Nat) : Bool :=
  (off ∈ [0x068, 0x070, 0x078, 0x080, 0x088, 0x090, 0x0C0, 0x0C8, 0x0D0, 0x0D8]) ||
  (0x400 ≤ off && off < 0xC00 && (off % 0x20 = 0x08 || off % 0x20 = 0x10))

/-- Reset value of PTAB words: entry i = i. -/
def ptabReset (first n : Nat) : Nat := (List.range n).foldl (fun a j => a ||| field (5 * j) 5 (first + j)) 0

/-- Reset value of a staged register. -/
def stagedReset (off : Nat) : Word64 :=
  if off = 0x068 then BitVec.ofNat 64 (field 48 9 64 ||| field 32 14 100 ||| field 16 9 64 ||| 64)
  else if off = 0x070 then 10
  else if off = 0x078 then 16
  else if off = 0x080 then BitVec.ofNat 64 (field 32 6 39 ||| field 16 8 1 ||| field 8 8 4 ||| 8)
  else if off = 0x088 then BitVec.allOnes 64
  else if off = 0x090 then 64
  else if off = 0x0C0 then BitVec.ofNat 64 (field 8 6 32)
  else if off = 0x0C8 then BitVec.ofNat 64 (ptabReset 0 12)
  else if off = 0x0D0 then BitVec.ofNat 64 (ptabReset 12 12)
  else if off = 0x0D8 then BitVec.ofNat 64 (ptabReset 24 8)
  else if off % 0x20 = 0x08 then BitVec.ofNat 64 (field 8 7 2 ||| 16)
  else BitVec.ofNat 64 ((off - 0x400) / 0x20)

/-- A staged register's value in a configuration. -/
def cfgReg (c : Cfg) (off : Nat) : Word64 := Tbl.get (stagedReset off) c.regs off

def setCfgReg (c : Cfg) (off : Nat) (v : Word64) : Cfg := { c with regs := Tbl.set (stagedReset off) c.regs off v }

def lwin (c : Cfg) : Nat := fld (cfgReg c 0x068) 48 9
def fetchLimitMs (c : Cfg) : Nat := fld (cfgReg c 0x068) 32 14
def fetchOut (c : Cfg) : Nat := fld (cfgReg c 0x068) 16 9
def fetchUnits (c : Cfg) : Nat := fld (cfgReg c 0x068) 0 9
def rowIdleMs (c : Cfg) : Nat := fld (cfgReg c 0x070) 0 10
def sweepShare (c : Cfg) : Nat := fld (cfgReg c 0x078) 0 5
def brambleMax (c : Cfg) : Nat := fld (cfgReg c 0x080) 32 6
def clWeight (c : Cfg) (cls : Fin 4) : Nat := fld (cfgReg c 0x080) (8 * (cls.val - 1)) 8
def cl0Slots (c : Cfg) (cl : Nat) : Nat := if (cfgReg c 0x088).getLsbD cl then 2 else 1
def spillLevel (c : Cfg) : Nat := fld (cfgReg c 0x090) 0 11
def cl0Rate (c : Cfg) (p : Nat) : Nat := fld (cfgReg c (0x408 + 0x20 * p)) 0 8
def cl0Burst (c : Cfg) (p : Nat) : Nat := fld (cfgReg c (0x408 + 0x20 * p)) 8 7
def homeOf (c : Cfg) (p : Nat) : Nat := fld (cfgReg c (0x410 + 0x20 * p)) 0 6
def granule (c : Cfg) : Nat := fld (cfgReg c 0x0C0) 0 5
def lineCount (c : Cfg) : Nat := fld (cfgReg c 0x0C0) 8 6
def ptab (c : Cfg) (i : Nat) : Nat :=
  if i < 12 then fld (cfgReg c 0x0C8) (5 * i) 5
  else if i < 24 then fld (cfgReg c 0x0D0) (5 * (i - 12)) 5
  else fld (cfgReg c 0x0D8) (5 * (i - 24)) 5

/-- The line port that serves a line (R193, R335). -/
def linePortOf (c : Cfg) (addr : Nat) : Nat := ptab c ((addr >>> granule c) % max 1 (lineCount c))

/-! ### Attention channel (R256, R257) -/

/-- Causes that Table 11.13 gives a source, as a mask. -/
def attCauses (src : Nat) : Nat :=
  if src = 0x800 then 0x10 else if src = 0x801 then 0x20 else if src = 0x802 then 0x40
  else if src = 0x400 then 0x0E else if src = 0x401 || src = 0x402 then 0x86 else 0x06

def attEnOf (ch : Chip) (src : Nat) : Nat :=
  if src = 0x800 then ch.faults.attEn else if src = 0x801 then ch.brambleEn
  else if src = 0x802 then ch.recorder.attEn else (getMb ch src).attEn

def attPendOf (ch : Chip) (src : Nat) : Nat :=
  if src = 0x800 then ch.faults.attPend else if src = 0x801 then ch.bramblePend
  else if src = 0x802 then ch.recorder.attPend else (getMb ch src).attPend

def attSetPend (ch : Chip) (src v : Nat) : Chip :=
  if src = 0x800 then { ch with faults := { ch.faults with attPend := v } }
  else if src = 0x801 then { ch with bramblePend := v }
  else if src = 0x802 then { ch with recorder := { ch.recorder with attPend := v } }
  else modMb ch src fun m => { m with attPend := v }

/-- Write the entry of one pending and enabled cause, while the queue has room for 64. -/
def attPushOne (src : Nat) (ch : Chip) (cause : Nat) : Chip :=
  if (attPendOf ch src &&& attEnOf ch src).testBit cause && ch.ctl.att.length < 64 then
    let ch := attSetPend ch src (attPendOf ch src ^^^ (1 <<< cause))
    { ch with ctl := { ch.ctl with att := ch.ctl.att ++ [(src, cause)],
                                   attNext := if src < 1024 then (src + 1) % 1024 else ch.ctl.attNext } }
  else ch

/-- The entries of one page, in ascending cause. -/
def attPushPage (ch : Chip) (src : Nat) : Chip :=
  if attPendOf ch src &&& attEnOf ch src = 0 then ch
  else (List.range 8).foldl (attPushOne src) ch

/-- The pages in the order of R257. -/
def attOrder (ch : Chip) : List Nat :=
  let ts := (ch.mbs.map (·.1)).filter (· < 1024)
  [0x800, 0x401, 0x402, 0x400, 0x403, 0x801, 0x802] ++
    ts.filter (ch.ctl.attNext ≤ ·) ++ ts.filter (· < ch.ctl.attNext)

/-- Write every pending and enabled cause to the attention queue (R257). -/
def attPump (ch : Chip) : Chip := (attOrder ch).foldl attPushPage ch

/-- An occurrence of a cause (R257). -/
def attRaise (ch : Chip) (src cause : Nat) : Chip :=
  attPump (attSetPend ch src (attPendOf ch src ||| 1 <<< cause))

/-! ### Flash: contents, and the queues of the controllers -/

/-- The 256 bytes of a page (R419). -/
def flashPage (f : Tbl FlitData) (n : Nat) : FlitData := Tbl.get (BitVec.allOnes 2048) f n

/-- `n` bytes from a byte address. -/
def flashRead (f : Tbl FlitData) (addr n : Nat) : List Byte :=
  (List.range n).map fun i =>
    (flashPage f ((addr + i) / 256)).extractLsb' (8 * ((addr + i) % 256)) 8

/-- Programming clears bits: each byte becomes the AND of what it held and what is programmed. -/
def flashProgram (f : Tbl FlitData) (addr : Nat) (bs : List Byte) : Tbl FlitData :=
  bs.zipIdx.foldl (fun f b =>
    let a := addr + b.2
    let hole := field (8 * (a % 256)) 8 0xFF
    let m := BitVec.ofNat 2048 (2 ^ 2048 - 1 - hole + field (8 * (a % 256)) 8 b.1.toNat)
    Tbl.modify (BitVec.allOnes 2048) f (a / 256) (· &&& m)) f

/-- Erasing a 64 KiB sector sets all its bits (R419). -/
def flashErase (f : Tbl FlitData) (addr : Nat) : Tbl FlitData := f.filter fun e => e.1 / 256 != addr / 0x10000

/-- A sector reads all 0xFF. -/
def sectorBlank (f : Tbl FlitData) (addr : Nat) : Bool := !f.any fun e => e.1 / 256 = addr / 0x10000

def getXspi (ch : Chip) (d : Fin 2) : Xspi := if d = 0 then ch.xspi0 else ch.xspi1
def setXspi (ch : Chip) (d : Fin 2) (x : Xspi) : Chip :=
  if d = 0 then { ch with xspi0 := x } else { ch with xspi1 := x }
def modXspi (ch : Chip) (d : Fin 2) (f : Xspi → Xspi) : Chip := setXspi ch d (f (getXspi ch d))

def getFlash (s : State) (d : Fin 2) : Tbl FlitData := if d = 0 then s.flash0 else s.flash1
def setFlash (s : State) (d : Fin 2) (f : Tbl FlitData) : State :=
  if d = 0 then { s with flash0 := f } else { s with flash1 := f }

/-- The erase intent ring (Table 19.2). -/
def intentBase : Nat := 0x00010000
def bootBase : Nat := 0x00030000
def groupBase : Nat := 0x00050000
def vaultBase : Nat := 0x00300000
def journalBase : Nat := 0x03000000

/-- Region code of an address (Table 19.2). -/
def regionCode (addr : Nat) : Nat :=
  if addr < 0x00100000 then 1 else if addr < 0x00300000 then 2 else if addr < 0x01000000 then 3
  else if addr < 0x03000000 then 4 else if addr < 0x04000000 then 5 else 6

/-- An address of one of the three rings. -/
def inRing (addr : Nat) : Bool := 0x00010000 ≤ addr && addr < 0x00070000

/-- An erase that needs an intent record first: one outside the three rings (R428). -/
def needsIntent (op : FlashOp) : Bool := op.bytes.isNone && op.phase = .intent && !inRing op.addr

/-- The ring that an operation writes a record into next: its own, or the erase intent ring for the records of an erase. -/
def ringOf (op : FlashOp) : Option FlashRing :=
  match op.bytes with
  | some _ => if op.tag = .boot then some .boot else if op.tag = .group then some .group else none
  | none => if op.phase = .erase || inRing op.addr then none else some .intent

/-- Where a ring's next record goes, its position, and the positions of the ring (R424). -/
def ringPos (x : Xspi) (r : FlashRing) : Nat × Nat × Nat :=
  match r with
  | .boot => (bootBase + 32 * x.bootPos, x.bootPos, 4096)
  | .group => (groupBase + 512 * x.groupPos, x.groupPos, 256)
  | .intent => (intentBase + 32 * x.intentPos, x.intentPos, 4096)

/-- The sector that an operation erases next: its own, or the sector that a ring's next record enters, which is erased before
it is written into (R424). -/
def eraseAt (x : Xspi) (op : FlashOp) : Option Nat :=
  match ringOf op with
  | some r =>
    let (addr, p, n) := ringPos x r
    if p % (n / 2) = 0 && !x.erased.contains r then some addr else none
  | none => if op.bytes.isNone then some op.addr else none

/-- The record of a vault write has begun to be programmed (R263). -/
def vaultBegun (ch : Chip) : Bool :=
  let onBus (x : Xspi) := match x.bus with | some op => op.tag = .vault | none => false
  onBus ch.xspi0 || onBus ch.xspi1 ||
    match ch.fw.vaultQ with | v :: _ => v.d0.isSome || v.d1.isSome | [] => false

/-- While PFAIL_N is asserted no Quince operation starts (R29) and no journal erase (R151), but a vault record already begun on
one device completes on the other (R263); before READY nothing starts (R444). -/
def pfailLets (ch : Chip) (op : FlashOp) : Bool :=
  (ch.dstate != 0 && op.owner != .quince && !(op.owner = .damson && op.bytes.isNone && op.phase != .completion)) ||
    (op.tag = .vault && vaultBegun ch)

/-- What an operation waits for on its own device: an erase for the one that has begun (R428), a program for the erase of its
sector (R429), and before READY a lease record for the repairs and erases of the journal (R149). -/
def flashWaits (ch : Chip) (x : Xspi) (op : FlashOp) : Bool :=
  (needsIntent op && x.queue.any fun o => o.bytes.isNone && o.phase != .intent) ||
  (op.bytes.isSome && (ringOf op).isNone && x.queue.any fun o => o.bytes.isNone && o.addr / 0x10000 = op.addr / 0x10000) ||
  (op.tag = .lease && ch.dstate = 0 && x.queue.any fun o => o.tag = .repair || o.tag = .journalErase)

/-- A waiting operation may start. From the beginning of a handover to its end no Quince operation does (R447). -/
def flashMayStart (ch : Chip) (x : Xspi) (op : FlashOp) : Bool :=
  (!ch.pfail || pfailLets ch op) && !(ch.fw.handover && op.owner = .quince) && !flashWaits ch x op

/-- Start the waiting operation of highest priority when the bus is free (R29): lease records before every other one. -/
def xsStart (ch : Chip) (d : Fin 2) : Chip :=
  let x := getXspi ch d
  match x.bus with
  | some _ => ch
  | none =>
    let pick (o : FlashOwner) := takeFirst (fun op : FlashOp => op.owner = o && flashMayStart ch x op) x.queue
    let lease := takeFirst (fun op : FlashOp => op.tag = .lease && flashMayStart ch x op) x.queue
    match lease.orElse fun _ => (pick .damson).orElse fun _ => (pick .recorder).orElse fun _ => pick .quince with
    | some (op, rest) => setXspi ch d { x with bus := some op, queue := rest, busSince := ch.cycle }
    | none => ch

/-- Request an operation of a device. -/
def xsPush (ch : Chip) (d : Fin 2) (op : FlashOp) : Chip :=
  xsStart (modXspi ch d fun x => { x with queue := x.queue ++ [op] }) d

/-- Request an operation of every device in service (R426). -/
def xsPushAll (ch : Chip) (op : FlashOp) : Chip :=
  let ch := if ch.xspi0.inService then xsPush ch 0 op else ch
  if ch.xspi1.inService then xsPush ch 1 op else ch

/-- Operations of a device, on the bus and waiting. -/
def xsOps (x : Xspi) : List FlashOp := x.bus.toList ++ x.queue

/-! ### Pips and the recorder buffer (18_records.md) -/

/-- Pack fields (value, width) from bit 0 without gaps (R408). -/
def packFields (fs : List (Nat × Nat)) : Nat :=
  (fs.foldl (fun (a : Nat × Nat) f => (a.1 ||| field a.2 f.2 f.1, a.2 + f.2)) (0, 0)).1

/-- A Pip without CHECK and REPEAT (Table 18.1); `params` is P3 to P0 as one number. -/
def mkPip (code sev flags boots usec params : Nat) : Pip :=
  BitVec.ofNat 256 (field 0 16 code ||| field 16 4 sev ||| field 20 4 flags ||| field 32 16 boots |||
    field 64 64 usec ||| field 128 128 params)

def pipCode (p : Pip) : Nat := fld p 0 16
def pipSev (p : Pip) : Nat := fld p 16 4
def pipFlags (p : Pip) : Nat := fld p 20 4
def pipRepeat (p : Pip) : Nat := fld p 24 8
def pipUsec (p : Pip) : Nat := fld p 64 64
def pipParams (p : Pip) : Nat := fld p 128 128

/-- CHECK: the CRC-16 of R39 over bytes 0x00–0x05 and 0x08–0x1F (Table 18.1). -/
def pipCheck (p : Pip) : Nat :=
  let bs := bvBytes 32 p
  (crc16 (bs.take 6 ++ bs.drop 8)).toNat

/-- The Pip as it is written to flash. -/
def pipSealed (p : Pip) : Pip := setFld p 48 16 (pipCheck p)

/-- First byte of the log region and its positions (Table 19.2, R414). -/
def logBase : Nat := 0x04000000
def logSize : Nat := 1572864

/-- A device takes recorder writes: in service, or its recovery has copied the log to the write position (R427). -/
def recDevice (ch : Chip) (d : Fin 2) : Bool :=
  let x := getXspi ch d
  x.inService || match x.recovery with
    | some sec => logBase / 0x10000 + ch.recorder.wpos / 2048 < sec
    | none => false

/-- A Pip write is under way on a device. -/
def recBusy (ch : Chip) : Bool :=
  (xsOps ch.xspi0).any (·.tag = .pip) || (xsOps ch.xspi1).any (·.tag = .pip)

/-- Request the write of the next Pip of the handed half at the write position (R414). The last position takes only
EV_LOG_FULL, which counts the Pips it replaces (R416). -/
def recKick (ch : Chip) : Chip :=
  let r := ch.recorder
  if r.left = 0 || r.paused || recBusy ch || !(recDevice ch 0 || recDevice ch 1) || logSize ≤ r.wpos then ch
  else
    let ch :=
      if r.wpos = logSize - 1 then
        let flags := if ch.pfail then 4 else 0
        let full := mkPip 0x0004 1 flags ch.boots (nowUs ch) (packFields [(r.left + r.filling.length, 8)])
        attRaise { ch with recorder := { r with handed := [full], left := 1, filling := [], waiting := false } } 0x802 6
      else ch
    let r := ch.recorder
    let pip := r.handed.getD (r.handed.length - r.left) 0
    let op : FlashOp := { owner := .recorder, tag := .pip, addr := logBase + 32 * r.wpos,
                          bytes := some (bvBytes 32 (pipSealed pip)) }
    let ch := { ch with recorder := { r with spoil := false } }
    let ch := if recDevice ch 0 then xsPush ch 0 op else ch
    if recDevice ch 1 then xsPush ch 1 op else ch

/-- Hand the filling half to flash; it waits while the other half is being written (R412). -/
def recHand (ch : Chip) : Chip :=
  let r := ch.recorder
  if r.filling.isEmpty || r.waiting then ch
  else if r.handed.isEmpty then
    recKick { ch with recorder := { r with filling := [], handed := r.filling, left := r.filling.length } }
  else { ch with recorder := { r with waiting := true } }

/-- Both halves are occupied (R411). -/
def recOccupied (r : Recorder) : Bool := r.waiting

/-- Enter a Pip into the filling half and hand the half over where R412 says so. -/
def recEnter (ch : Chip) (p : Pip) : Chip :=
  let r := ch.recorder
  let since := if r.filling.isEmpty then ch.cycle else r.since
  let filling := r.filling ++ [p]
  let ch := { ch with recorder := { r with filling := filling, since := since } }
  let ch := if 1 ≤ pipSev p then attRaise ch 0x802 6 else ch
  if filling.length = 32 || 1 ≤ pipSev p || ch.pfail then recHand ch else ch

/-- A full log discards a new Pip, unless a clear holds it in the buffer, from its step 1 to its step 5 (R416, R418). -/
def logDiscards (r : Recorder) : Bool :=
  r.full && match r.clearing with | some (_, n) => decide (3 < n) | none => true

/-- A new Pip (R410, R411, R416): merged with an equal last Pip, discarded while both halves are occupied or the log is
full, or entered; the first to enter a free half after a loss is EV_PIP_LOST. -/
def recPip (ch : Chip) (p : Pip) : Chip :=
  let r := ch.recorder
  let same (q : Pip) := pipCode q = pipCode p && pipSev q = pipSev p && pipFlags q = pipFlags p &&
    pipParams q = pipParams p && pipRepeat q < 0xFF
  if logDiscards r then ch
  else if recOccupied r then
    if pipSev p = 0 then { ch with recorder := { r with lostNote := satInc 32 r.lostNote } }
    else { ch with recorder := { r with lostRepair := satInc 32 r.lostRepair } }
  else
    match r.filling.getLast? with
    | some q =>
      if same q then
        { ch with recorder := { r with filling := r.filling.dropLast ++ [setFld q 24 8 (pipRepeat q + 1)] } }
      else recEnter ch p
    | none =>
      if r.lostNote = 0 && r.lostRepair = 0 then recEnter ch p
      else
        let lost := mkPip 0x0003 1 (if ch.pfail then 4 else 0) ch.boots (nowUs ch)
          (packFields [(r.lostNote, 32), (r.lostRepair, 32)])
        let ch := recEnter { ch with recorder := { r with lostNote := 0, lostRepair := 0 } } lost
        let r := ch.recorder
        if recOccupied r then
          if pipSev p = 0 then { ch with recorder := { r with lostNote := satInc 32 r.lostNote } }
          else { ch with recorder := { r with lostRepair := satInc 32 r.lostRepair } }
        else recEnter ch p

/-- Record an event with packed fields; `tv` names the tenant as the first field (R408). -/
def event (ch : Chip) (code sev : Nat) (tv : Option Nat) (fs : List (Nat × Nat)) : Chip :=
  let flags := (if ch.pfail then 4 else 0) + (if tv.isSome then 1 else 0)
  let all := match tv with | some t => (t, 10) :: fs | none => fs
  recPip ch (mkPip code sev flags ch.boots (nowUs ch) (packFields all))

/-- Record an event whose parameters have their own layout: P0 to P3 (R350, R312, R397). -/
def eventRaw (ch : Chip) (code sev flags : Nat) (p0 p1 p2 p3 : Nat) : Chip :=
  let flags := flags + (if ch.pfail then 4 else 0)
  recPip ch (mkPip code sev flags ch.boots (nowUs ch)
    (field 0 32 p0 ||| field 32 32 p1 ||| field 64 32 p2 ||| field 96 32 p3))

/-! ### Random unit -/

/-- Draw `n` bytes from the DRBG for one consumer (R402, R404). -/
def drawBytes (ch : Chip) (n : Nat) : List Byte × Chip :=
  let r := ch.rng
  let g := drbgGenerate r.key r.v n
  (g.1, { ch with rng := { r with key := g.2.1, v := g.2.2, calls := r.calls + 1 } })

def getSloe (ch : Chip) (i : Nat) : Sloe := Tbl.get {} ch.rng.sloes i
def setSloe (ch : Chip) (i : Nat) (v : Sloe) : Chip := { ch with rng := { ch.rng with sloes := Tbl.set {} ch.rng.sloes i v } }

/-- The healthy sources (R399). -/
def healthySloes (ch : Chip) : List Nat := (List.range 8).filter fun i => (getSloe ch i).healthy

/-- Octets of a source that wait in its crossing queue, and its depth (R19; one queue of 64 bytes for each source is a DESIGN
CHOICE, log entry 161). -/
def unreadOctets (o : Sloe) : Nat := o.samples / 8 - o.used
def sloeQueue : Nat := 64

/-- What a source has sampled so far is not conditioned (R400, R405). -/
def discardOctets (o : Sloe) : Sloe := { o with used := max o.used ((o.samples + 7) / 8) }

/-- The healthy source that the conditioner's round robin comes to next (R401). -/
def nextSloe (ch : Chip) : Option Nat :=
  let hs := healthySloes ch
  (hs.find? (ch.rng.turn ≤ ·)).orElse fun _ => hs.head?

/-- The conditioner takes the next eight raw bits, which are free (log entry 4), where the source has them and fewer than three
blocks are gathered; 1,024 bits are one block (R401, R402). -/
def gatherOctet (ch : Chip) : Chip :=
  match nextSloe ch with
  | none => ch
  | some i =>
    let o := getSloe ch i
    if 3 ≤ ch.rng.blocks.length || unreadOctets o = 0 then ch
    else
      let ch := setSloe ch i { o with used := o.used + 1 }
      let r := { ch.rng with turn := (i + 1) % 8 }
      let raw := r.block ++ [Config.sloeBits r.powerOn i o.used]
      if raw.length < 128 then { ch with rng := { r with block := raw } }
      else { ch with rng := { r with block := [], blocks := r.blocks ++ [condition raw] } }

/-- The conditioner takes up to an octet of each source; it waits while a healthy source's failure is not yet acted on, whose
bits are to be discarded (R400). -/
def gatherOctets (ch : Chip) : Chip :=
  if (healthySloes ch).any fun i => (getSloe ch i).due.isSome then ch
  else (List.range 8).foldl (fun ch _ => gatherOctet ch) ch

/-- At least four sources are healthy, and three conditioned blocks are gathered (R400, R402). -/
def entropyReady (ch : Chip) : Bool := 4 ≤ (healthySloes ch).length && 3 ≤ ch.rng.blocks.length

/-- Three conditioned blocks: 384 bits of entropy input (R402). -/
def entropyInput (ch : Chip) : List Byte × Chip :=
  ((ch.rng.blocks.take 3).flatten, { ch with rng := { ch.rng with blocks := ch.rng.blocks.drop 3 } })

/-! ### The cache key (R106) -/

/-- DEVICE_ID as bytes (Table 14.3). -/
def deviceIdBytes : List Byte := bvBytes 16 Config.deviceId

/-- A 64-byte data unit as it is stored under CK. -/
def underCk (ck : List Byte) (du : Nat) (key : List Byte) : List Byte :=
  xtsEncUnit (ck.take 32) (aesEnc (ck.drop 32) (duBytes du)) (fitBytes 64 key)

/-- The 64 bytes that a data unit under CK holds. -/
def fromCk (ck : List Byte) (du : Nat) (stored : List Byte) : List Byte :=
  xtsDecUnit (ck.take 32) (aesEnc (ck.drop 32) (duBytes du)) (fitBytes 64 stored)

/-- The key bytes of a slot, read through CK; none without CK or without a key. -/
def slotKey (ch : Chip) (k : Nat) : List Byte :=
  match ch.keys.ck with
  | some ck => fromCk ck k (Tbl.get [] ch.keys.cache k)
  | none => []

/-- Place of a group's copy of an entry in the line key stores, which is its data unit less 2^33 (R106). -/
def storeAt (g e : Nat) : Nat := 4096 * g + e

/-- The key bytes of a line key entry, read from a group's store (R106). -/
def lineKey (ch : Chip) (g e : Nat) : List Byte :=
  match ch.keys.ck with
  | some ck => fromCk ck (2 ^ 33 + storeAt g e) (Tbl.get [] ch.keys.lstore (storeAt g e))
  | none => []

/-- The symbol code of 64 stored bytes (R116). -/
def codeOf (stored : List Byte) : BitVec 128 := Config.symbolCode (BitVec.ofNat 512 (ofLE stored))

/-- Store a slot's key under CK with its symbol code (R106, R114). -/
def storeSlot (ch : Chip) (ck : List Byte) (k : Nat) (key : List Byte) : Chip :=
  let bs := underCk ck k key
  { ch with keys := { ch.keys with cache := Tbl.set [] ch.keys.cache k bs, codes := Tbl.set 0 ch.keys.codes k (codeOf bs) } }

/-- Write zeros over a slot's key bytes and code (R117). -/
def eraseSlot (ch : Chip) (k : Nat) : Chip :=
  { ch with keys := { ch.keys with cache := Tbl.erase ch.keys.cache k, codes := Tbl.erase ch.keys.codes k } }

/-- Store a line key under CK in the stores of all eight groups, each copy with its symbol code (R106, R181). -/
def storeLine (ch : Chip) (ck : List Byte) (e : Nat) (key : List Byte) : Chip :=
  (List.range 8).foldl (fun ch g =>
    let bs := underCk ck (2 ^ 33 + storeAt g e) key
    { ch with keys := { ch.keys with
        lstore := Tbl.set [] ch.keys.lstore (storeAt g e) bs
        lcodes := Tbl.set 0 ch.keys.lcodes (storeAt g e) (codeOf bs) } }) ch

/-- Write zeros over every group's copy of a line key (R117). -/
def eraseLine (ch : Chip) (e : Nat) : Chip :=
  { ch with keys := { ch.keys with
      lstore := ch.keys.lstore.filter fun x => x.1 % 4096 != e
      lcodes := ch.keys.lcodes.filter fun x => x.1 % 4096 != e } }

end Sys2Proof.Machine
end

