-- ==== Sys2Proof/Machine/Units.lean ====
section
/-! DEFINITION. Fault sources, kinds and severities (15_faults.md, Tables 15.2 to 15.5), the sending side of the fault
network, and the unit state table with the counts taken from it (16_degraded.md). -/

namespace Sys2Proof.Machine

/-! ### Source IDs (Table 15.2) -/

def srcLevel (src : Nat) : Nat := src / 0x2000

def srcSlice (c s : Nat) : Nat := 0x8000 + 64 * c + s
def srcLineSlice (p s : Nat) : Nat := 0x9000 + 32 * p + s
def srcCluster (c : Nat) : Nat := 0xA000 + c
def srcPort (p : Nat) : Nat := 0xA200 + p
def srcCurrant (u : Nat) : Nat := 0xA400 + u
def srcLine (p : Nat) : Nat := 0xA600 + p
def srcGroup (g : Nat) : Nat := 0xA800 + g
def srcXspi (d : Nat) : Nat := 0xAA00 + d
def srcControl : Nat := 0xAC00
/-- A level-6 subsystem unit. -/
def srcSub (u : Nat) : Nat := 0xC000 + u
def srcTenantAlarm (t : Nat) : Nat := 0xC400 + t
/-- Rind monitor i (R382): level 7 for the mesh pairs and TEST_MODE. -/
def srcMonitor (i : Nat) : Nat := if 11 ≤ i && i ≤ 19 then 0xF000 + i else 0xD000 + i

/-- The sample is of the source's own kind (Table 17.1). -/
def sampleOf (i : Nat) : MonitorSample → Bool
  | .temp .. => i < 8
  | .volt .. => i = 8
  | .clock .. => i = 9 || i = 10
  | .mesh _ => 11 ≤ i && i ≤ 18
  | .input _ => 19 ≤ i

/-- The sticky index of a source, none where Table 15.2 defines no such source (R346, Table 15.3). -/
def srcSticky (src : Nat) : Option Nat :=
  let low := src % 0x2000
  match srcLevel src with
  | 1 => if low ≤ 4 || (0x10 ≤ low && low ≤ 0x19) then some (0x710 + low) else none
  | 2 => if low ≤ 1 then some (0x730 + low) else none
  | 3 =>
    let n := low % 0x800
    if low / 0x800 = 0 then (if n < 1088 then some n else none)
    else if low / 0x800 = 1 then (if n < 288 then some (0x440 + n) else none)
    else if low / 0x800 = 2 then (if n < 64 then some (0x5E0 + n) else none)
    else none
  | 4 =>
    if low < 0x1000 then
      (if low % 64 ≤ 16 then some (17 * (low / 64) + low % 64) else none)
    else
      let p := (low - 0x1000) / 32
      let s := low % 32
      if low < 0x1400 && s ≤ 8 then some (0x440 + 9 * p + s) else none
  | 5 =>
    let ty := low / 0x200
    let i := low % 0x200
    if ty = 0 && i < 64 then some (0x560 + i)
    else if ty = 1 && i < 64 then some (0x5A0 + i)
    else if ty = 2 && i < 64 then some (0x5E0 + i)
    else if ty = 3 && i < 32 then some (0x620 + i)
    else if ty = 4 && i < 8 then some (0x640 + i)
    else if ty = 5 && i < 2 then some (0x648 + i)
    else if ty = 6 && i = 0 then some 0x64A
    else none
  | 6 =>
    if low ≤ 0x0C || (0x10 ≤ low && low ≤ 0x1F) then some (0x650 + low)
    else if 0x400 ≤ low && low < 0x800 then some (0xC00 + (low - 0x400))
    else if 0x1000 ≤ low && low < 0x1018 && srcMonitor (low - 0x1000) = src then some (0x6D0 + (low - 0x1000))
    else none
  | 7 => if 0x1000 ≤ low && low < 0x1018 && srcMonitor (low - 0x1000) = src then some (0x6D0 + (low - 0x1000)) else none
  | _ => none

/-- The monitor number of a Rind source. -/
def srcRind (src : Nat) : Option Nat :=
  if 6 ≤ srcLevel src && 0x1000 ≤ src % 0x2000 && (srcSticky src).isSome then some (src % 0x2000 - 0x1000) else none

/-- The unit of levels 4 and 5 that holds a sticky index, as its source ID (R352). -/
def stickyUnit (ix : Nat) : Option Nat :=
  if ix < 0x440 then some (srcSlice (ix / 17) (ix % 17))
  else if ix < 0x560 then some (srcLineSlice ((ix - 0x440) / 9) ((ix - 0x440) % 9))
  else if ix < 0x5A0 then some (srcCluster (ix - 0x560))
  else if ix < 0x5E0 then some (srcPort (ix - 0x5A0))
  else if ix < 0x620 then some (srcCurrant (ix - 0x5E0))
  else if ix < 0x640 then some (srcLine (ix - 0x620))
  else if ix < 0x648 then some (srcGroup (ix - 0x640))
  else if ix < 0x64A then some (srcXspi (ix - 0x648))
  else if ix = 0x64A then some srcControl
  else none

/-- The reaction unit of a source (R352). -/
def srcUnit (src : Nat) : Option Nat := (srcSticky src).bind stickyUnit

/-- The lane of the fault network (R343). -/
def srcLane (src : Nat) : Nat :=
  let low := src % 0x2000
  match srcLevel src with
  | 3 => 1
  | 4 => 1
  | 5 => if low / 0x200 = 0 || low / 0x200 = 2 then 1 else 2
  | 6 =>
    if low = 0x00 || low = 0x02 || low = 0x0B || low = 0x0C || (0x10 ≤ low && low ≤ 0x1F) || 0x1000 ≤ low then 0 else 3
  | 7 => 0
  | _ => 3

/-! ### Kinds (Table 15.4) -/

def fkSramCe : Nat := 0x01
def fkSramUe : Nat := 0x02
def fkRoundCheck : Nat := 0x03
def fkFlitCrc : Nat := 0x04
def fkCheckColumn : Nat := 0x05
def fkKat : Nat := 0x06
def fkTimeout : Nat := 0x07
def fkProtocol : Nat := 0x08
def fkRetryLimit : Nat := 0x09
def fkPortOverrun : Nat := 0x10
def fkPortStall : Nat := 0x11
def fkPortCredit : Nat := 0x12
def fkClockLoss : Nat := 0x13
def fkLineEcc : Nat := 0x20
def fkLineVital : Nat := 0x21
def fkLeaseWrite : Nat := 0x22
def fkFlash : Nat := 0x23
def fkOtp : Nat := 0x24
def fkTenantAlarm : Nat := 0x30
def fkCmdZeroize : Nat := 0x31
def fkLockstep : Nat := 0x40
def fkShadow : Nat := 0x41
def fkNetCe : Nat := 0x42
def fkNetUe : Nat := 0x43
def fkDamson : Nat := 0x44
def fkKeyLoader : Nat := 0x45
def fkDrbg : Nat := 0x46
def fkMesh : Nat := 0x50
def fkTamperIn : Nat := 0x51
def fkTemp : Nat := 0x52
def fkVolt : Nat := 0x53
def fkPll : Nat := 0x54

/-- Kinds that Table 15.4 lists. -/
def kindDefined (k : Nat) : Bool :=
  (1 ≤ k && k ≤ 9) || (0x10 ≤ k && k ≤ 0x13) || (0x20 ≤ k && k ≤ 0x24) || k = 0x30 || k = 0x31 ||
    (0x40 ≤ k && k ≤ 0x46) || (0x50 ≤ k && k ≤ 0x54)

/-- Kinds whose severity taken is NOTE. -/
def kindNote (k : Nat) : Bool := k = fkSramCe || k = fkPortCredit || k = fkNetCe

/-- Counted kinds (R347). -/
def kindCounted (k : Nat) : Bool := k = fkRoundCheck || k = fkCheckColumn

/-- Kind floors: 0 NOTE, 1 REPAIR, 2 TENANT, 3 HALT, 4 ZEROIZE. -/
def kindFloor (k : Nat) : Nat :=
  if k = fkRetryLimit || k = fkOtp || k = fkKeyLoader || k = fkDrbg then 1
  else if k = fkTenantAlarm then 2
  else if k = fkLineVital || k = fkCmdZeroize || (0x40 ≤ k && k ≤ 0x44 && k != fkNetCe) || (0x52 ≤ k && k ≤ 0x54) then 3
  else if k = fkMesh || k = fkTamperIn then 4
  else 0

/-- Repair action: 1 reset, 2 fence, 0 none. -/
def kindAction (k : Nat) : Nat :=
  if k = fkRoundCheck || k = fkKat || k = fkClockLoss || k = fkFlash then 2
  else if k = fkFlitCrc || k = fkCheckColumn || k = fkTimeout || k = fkProtocol || k = fkRetryLimit then 1
  else 0

/-! ### Severities (Table 15.5) -/

/-- Default severity of a sticky index. -/
def defaultSev (ix : Nat) : Nat :=
  if 0x650 ≤ ix && ix ≤ 0x66F then
    let u := ix - 0x650
    if u = 0x00 || u = 0x02 || u = 0x0B || (0x10 ≤ u && u ≤ 0x1F) then 3 else if u = 0x0C then 4 else 1
  else if 0x6D0 ≤ ix && ix ≤ 0x70F then
    if 11 ≤ ix - 0x6D0 && ix - 0x6D0 ≤ 23 then 4 else 3
  else if 0xC00 ≤ ix then 2
  else 1

/-- Floor of a sticky index. -/
def floorSev (ix : Nat) : Nat :=
  if 0x650 ≤ ix && ix ≤ 0x66F then
    let u := ix - 0x650
    if u = 0x00 || u = 0x02 || u = 0x0B || (0x10 ≤ u && u ≤ 0x1F) then 3
    else if u = 0x0C then 4
    else if u = 0x05 || u = 0x06 || u = 0x07 then 1
    else 0
  else if 0x6D0 ≤ ix && ix ≤ 0x70F then
    if 11 ≤ ix - 0x6D0 && ix - 0x6D0 ≤ 23 then 4 else 3
  else if 0xC00 ≤ ix then 2
  else if ix = 0x648 || ix = 0x649 || (0x710 ≤ ix && ix ≤ 0x714) || (0x730 ≤ ix && ix ≤ 0x731) then 1
  else 0

def getSrc (ch : Chip) (src : Nat) : FaultSrc := Tbl.get {} ch.faults.srcs src
def setSrc (ch : Chip) (src : Nat) (v : FaultSrc) : Chip :=
  { ch with faults := { ch.faults with srcs := Tbl.set {} ch.faults.srcs src v } }

def getSticky (ch : Chip) (ix : Nat) : Sticky := Tbl.get {} ch.faults.sticky ix
def setSticky (ch : Chip) (ix : Nat) (v : Sticky) : Chip :=
  { ch with faults := { ch.faults with sticky := Tbl.set {} ch.faults.sticky ix v } }

/-- Severity in force of a sticky index: that of the map, which nothing lowers below the index's floor and which has no code above
ZEROIZE (R348). -/
def sevOf (ch : Chip) (ix : Nat) : Nat := min 4 (max (floorSev ix) ((getSticky ch ix).sev.getD (defaultSev ix)))

/-! ### Forming a message (R344) -/

/-- CONTEXT that names a tenant (Table 15.1), with bits 20:0 as the kind defines. -/
def ctxTenant (t low : Nat) : BitVec 32 := BitVec.ofNat 32 (field 31 1 1 ||| field 21 10 t ||| field 0 21 low)

/-- CONTEXT that names no tenant. -/
def ctxPlain (low : Nat) : BitVec 32 := BitVec.ofNat 32 (field 0 21 low)

/-- CONTEXT bits 20:0 that name a unit of level 5: type in bits 10:8, index in bits 5:0 (R358). -/
def ctxUnit (ty i : Nat) : Nat := field 8 3 ty ||| field 0 6 i

/-- A unit forms a message: SEQ advances, and the message merges with an unsent one of its pending register, which takes the newer
SEQ (R344). -/
def raise (ch : Chip) (src kind : Nat) (ctx : BitVec 32) : Chip :=
  let f := getSrc ch src
  let note := kindNote kind
  let seq := (f.seq + 1) % 256
  let merge (o : Option (Nat × BitVec 32 × Nat)) : Option (Nat × BitVec 32 × Nat) :=
    match o with
    | some (k, x, _) => if kindFloor k < kindFloor kind then some (kind, ctx, seq) else some (k, x, seq)
    | none => some (kind, ctx, seq)
  let fresh := if note then f.pendNote.isNone else f.pendOther.isNone
  let f := { f with seq := seq }
  let f := if note then { f with pendNote := merge f.pendNote } else { f with pendOther := merge f.pendOther }
  let ch := setSrc ch src f
  if fresh then { ch with faults := { ch.faults with net := ch.faults.net ++ [(src, note)] } } else ch

/-! ### The unit state table (R376 to R379) -/

/-- A unit as it starts: the last slice of a full set is the standby (R369, R370). -/
def unitInit (id : Nat) : UnitSt :=
  if (srcLevel id = 4 && id % 0x2000 < 0x1000 && id % 64 = 16) || (srcLevel id = 4 && 0x1000 ≤ id % 0x2000 && id % 32 = 8)
  then { live := .spare, mirror := .spare } else {}

def getUnit (ch : Chip) (id : Nat) : UnitSt := Tbl.get (unitInit id) ch.faults.units id
def setUnit (ch : Chip) (id : Nat) (v : UnitSt) : Chip :=
  { ch with faults := { ch.faults with units := Tbl.set (unitInit id) ch.faults.units id v } }

/-- How strict a state is (R379). -/
def strictness (u : UState) : Nat :=
  match u with
  | .active => 0
  | .spare => 1
  | .fenced => 2
  | .down => 3

/-- Traffic obeys the stricter of the two tables (R379). -/
def unitEff (u : UnitSt) : UState := if strictness u.live < strictness u.mirror then u.mirror else u.live

/-- The code of a unit state (R316, Table 13.9). -/
def stateCode (u : UState) : Nat :=
  match u with
  | .active => 0
  | .spare => 1
  | .fenced => 2
  | .down => 3

/-- A change of the live table, posted to the mirror in the same step (R376, R377; log entry 18). -/
def changeUnit (ch : Chip) (id : Nat) (st : UState) (cause : Nat) : Chip :=
  let u := getUnit ch id
  let g := (u.sgen + 1) % 65536
  setUnit ch id { u with live := st, mirror := st, sgen := g, msgen := g, cause := cause }

/-- Restore a mirror entry from the live table (R378 step 4). -/
def restoreMirror (ch : Chip) (id : Nat) : Chip :=
  let u := getUnit ch id
  setUnit ch id { u with mirror := u.live, msgen := u.sgen }

/-- Rebuild the whole mirror from the live table (R377). -/
def rebuildMirror (ch : Chip) : Chip :=
  { ch with faults := { ch.faults with
    units := ch.faults.units.map fun e => (e.1, { e.2 with mirror := e.2.live, msgen := e.2.sgen }) } }

/-- The cluster is in state 0x03 or being reset: it serves nothing (R352, R86). -/
def clusterDown (ch : Chip) (c : Nat) : Bool := strictness (unitEff (getUnit ch (srcCluster c))) = 3

/-- The Currant is fenced (Table 7.4). -/
def currantDown (ch : Chip) (u : Nat) : Bool := strictness (unitEff (getUnit ch (srcCurrant u))) = 3

/-- A unit that is being reset or is fenced carries no work (R379). -/
def unitOut (ch : Chip) (id : Nat) : Bool := 2 ≤ strictness (unitEff (getUnit ch id))

/-- Active slices of a cluster (R482). -/
def activeStream (ch : Chip) (c : Nat) : Nat :=
  if clusterDown ch c then 0
  else ((List.range 17).filter fun s => unitEff (getUnit ch (srcSlice c s)) = .active).length

/-- Active slices of a line port (R482). -/
def activeLine (ch : Chip) (p : Nat) : Nat :=
  if strictness (unitEff (getUnit ch (srcLine p))) = 3 then 0
  else ((List.range 9).filter fun s => unitEff (getUnit ch (srcLineSlice p s)) = .active).length

/-- SSLICES (Table 14.5). -/
def sslices (ch : Chip) : Nat := (List.range 64).foldl (fun n c => n + activeStream ch c) 0

/-- LSLICES (Table 14.5). -/
def lslices (ch : Chip) : Nat := (List.range 32).foldl (fun n p => n + activeLine ch p) 0

/-- The standby slice of a cluster. -/
def standbyStream (ch : Chip) (c : Nat) : Option Nat :=
  (List.range 17).find? fun s => unitEff (getUnit ch (srcSlice c s)) = .spare

/-- The standby slice of a line port. -/
def standbyLine (ch : Chip) (p : Nat) : Option Nat :=
  (List.range 9).find? fun s => unitEff (getUnit ch (srcLineSlice p s)) = .spare

/-- Bring REPLACE_N to its condition and record the change (R375). -/
def updateReplace (ch : Chip) : Chip :=
  let ss := sslices ch
  let ls := lslices ch
  let want := ss < ch.faults.replaceLevel || (List.range 32).any fun p => activeLine ch p < 8
  if want = ch.faults.replace then ch
  else
    let ch := { ch with faults := { ch.faults with replace := want } }
    if want then event ch 0x000C 1 none [(ss, 16), (ls, 16)] else event ch 0x000D 0 none [(ss, 16), (ls, 16)]

/-- The cluster that serves class 0 of a port (R86 step 1), none when every cluster is fenced. -/
def candidate (ch : Chip) (cfg : Cfg) (p : Nat) : Option Nat :=
  ((List.range 64).map fun i => (homeOf cfg p + i) % 64).find? fun c => !clusterDown ch c

/-- Sum of CL0_RATE over the ports whose class-0 messages a cluster serves (R374). -/
def cl0Sum (ch : Chip) (c : Nat) : Nat :=
  (List.range 64).foldl (fun n p => if candidate ch ch.cfg p = some c then n + cl0Rate ch.cfg p else n) 0

/-- Record EV_CL0_OVERCOMMIT for each cluster that a fence, a revive or a commit leaves above 16 × s (R374). -/
def checkOvercommit (ch : Chip) : Chip :=
  (List.range 64).foldl (fun ch c =>
    if clusterDown ch c then ch
    else
      let sum := cl0Sum ch c
      let s := activeStream ch c
      if 16 * s < sum then event ch 0x000F 1 none [(c, 6), (sum, 16), (s, 5)] else ch) ch

/-- The line port group of a line port (Table 1.1). -/
def groupOf (p : Nat) : Nat := p / 4

/-- A line port serves: it is enabled, and neither it nor its group is being reset or fenced (R379). -/
def portServes (ch : Chip) (p : Nat) : Bool :=
  (getLine ch p).st = .enabled && !unitOut ch (srcLine p) && !unitOut ch (srcGroup (groupOf p))

end Sys2Proof.Machine
end

