-- ==== Sys2Proof/Machine/Endings.lean ====
section
/-! DEFINITION. How requests, rows, ranges, ports and tenants' work end: the end of a request and of a key's use
(R117, R126, 05_keys.md), the endings of R51, R81 and R234, the discarding of rows (R172, R173), the fence of a stream
port (R54) and the reset of a tenant (R233 to R235, 10_tenants.md). -/

namespace Sys2Proof.Machine

/-! ### Slots: in-flight counts, USAGE, CLEARING -/

def inflightOf (ch : Chip) (k : Nat) : Nat := Tbl.get 0 ch.keys.inflight k
def setInflight (ch : Chip) (k n : Nat) : Chip :=
  { ch with keys := { ch.keys with inflight := Tbl.set 0 ch.keys.inflight k n } }

/-- Remove a slot's key, tag material and kept tweaks from every cluster (R117 steps 2 and 3). -/
def dropKey (ch : Chip) (k : Nat) : Chip :=
  { ch with clusters := Tbl.mapVals {} (fun _ cl =>
      { cl with keyFile := cl.keyFile.filter (·.slot != k), tweaks := cl.tweaks.filter (·.slot != k) }) ch.clusters }

/-- Remove a slot's pin and return it to the quota (R117 step 2, R125). -/
def dropPin (ch : Chip) (k : Nat) : Chip :=
  { ch with keys := { ch.keys with pins := ch.keys.pins.filter fun e =>
      match e.2 with
      | some (slot, _, _) => slot != k
      | none => false } }

/-- A slot enters CLEARING: key bytes zero, key files, pin store and kept tweaks cleared (R117). -/
def startClearing (ch : Chip) (k : Nat) : Chip :=
  let ch := setDesc ch k (setFld (setFld (slotDesc ch k) 125 3 ssClearing) 94 1 0)
  dropPin (dropKey (eraseSlot ch k) k) k

/-- A RETIRING slot with no request in flight enters CLEARING (Table 5.6). -/
def checkDrained (ch : Chip) (k : Nat) : Chip :=
  if dState (slotDesc ch k) = ssRetiring && inflightOf ch k = 0 then startClearing ch k else ch

/-- O or N of a range no longer holds its armed generation (R301). -/
def rangeStale (ch : Chip) (r : Range) : Bool :=
  dKgen (slotDesc ch r.o) != r.ogen || dKgen (slotDesc ch r.n) != r.ngen

/-- A range starts: ARMED becomes OPEN with B = LO (R204). -/
def startRange (ch : Chip) (j : Nat) (r : Range) : Chip :=
  let ch := setRange ch j (some { r with st := .opened, b := r.lo })
  event ch 0x0601 0 (some r.tenant) [(j, 12), (r.o, 20), (r.n, 20)]

/-- Blocks processed under a slot (R126): USAGE grows, EV_KEY_BUDGET is recorded at the completion that reaches the
budget, and an ARMED range whose O this is starts as XN_RANGE_START would; one that could not records EV_REKEY_NO_KEY (R220,
log entry 131). -/
def addUsage (ch : Chip) (k kgen blocks : Nat) : Chip :=
  let d := slotDesc ch k
  if dState d = ssEmpty || dKgen d != kgen then ch
  else
    let old := dUsage d
    let new := satAdd 52 old blocks
    let ch := setDesc ch k (setFld d 0 52 new)
    let budget := dBudget d * 2 ^ 20
    if old < budget && budget ≤ new then
      let ch := event ch 0x0304 0 (some (dTenant d)) [(k, 20), (kgen, 8), (0, 1)]
      match ch.ranges.find? (fun e => match e.2 with | some r => r.o = k && r.st = .armed | none => false) with
      | some (j, some r) => if rangeStale ch r then event ch 0x0609 0 (some r.tenant) [(0, 12), (k, 20)] else startRange ch j r
      | _ => ch
    else ch

/-! ### Requests -/

def findReq (pt : Port) (rid : Nat) : Option Req := pt.reqs.find? (·.rid = rid)
def modReq (ch : Chip) (p rid : Nat) (f : Req → Req) : Chip :=
  modPort ch p fun pt => { pt with reqs := modifyFirst (·.rid = rid) f pt.reqs }

/-- Data bytes of a request: LEN, or k × 4,096 of a DECODE (R126). -/
def dataLen (q : Req) : Nat := if sbOp q.sb = opDecode then q.ck * 4096 else sbLen q.sb

/-- Data unit size of the slots a request uses. -/
def reqUnit (q : Req) : Nat :=
  match q.uses with
  | (_, u) :: _ => u.unit
  | [] => 0

/-- Data bytes among the first `n` payload bytes (Table 2.2): tags, prefix and AAD do not count. -/
def dataDone (q : Req) (n : Nat) : Nat :=
  let op := sbOp q.sb
  let mode := sbMode q.sb
  let len := dataLen q
  if isXts mode then
    if isTagged mode && op != opEncrypt && op != opEncode then
      let u := reqUnit q
      if u = 0 then min n len else min ((n / (u + 16)) * u + min (n % (u + 16)) u) len
    else min n len
  else if op = opEncrypt then min (n - sbAadlen q.sb) len
  else min (n - 16 - sbAadlen q.sb) len

/-- Blocks in `n` data bytes of units of size `u`; a last partial block counts once its request is complete (R126). -/
def blocksIn (u n : Nat) (whole : Bool) : Nat :=
  let part (m : Nat) := if whole then ceilDiv m 16 else m / 16
  if u = 0 then part n else (n / u) * ceilDiv u 16 + part (n % u)

/-- Blocks processed under each slot a request uses, in order. -/
def usageRuns (q : Req) : List (KeyUse × Nat) :=
  let done := dataDone q q.buf.length
  let whole := done = dataLen q
  let u := reqUnit q
  ((q.uses.foldl (fun (acc : Nat × List (KeyUse × Nat)) run =>
    let size := if u = 0 then dataLen q else run.1 * u
    (acc.1 + size, acc.2 ++ [(run.2, blocksIn u (min (done - acc.1) size) whole)])) (0, [])).2) ++
  match q.newUse with
  | some n => [(n, blocksIn u (dataDone q q.second) (dataDone q q.second = dataLen q))]
  | none => []

/-- The slots a request names, each once. -/
def reqSlots (q : Req) : List Nat := ((q.uses.map (·.2.slot)) ++ (q.newUse.toList.map (·.slot))).eraseDups

/-- A request ends for its in-flight counts and USAGE (R117, R126). -/
def releaseReq (ch : Chip) (q : Req) : Chip :=
  let ch := (usageRuns q).foldl (fun ch ub => addUsage ch ub.1.slot ub.1.kgen ub.2) ch
  (reqSlots q).foldl (fun ch k => checkDrained (setInflight ch k (inflightOf ch k - 1)) k) ch

/-- Return credits: pulses on PI_CRED[c] (R44). -/
def giveCredit (n : Nat) (ic : IngClass) : IngClass := { ic with unspent := ic.unspent + n, pulses := ic.pulses + n }

/-- Flits of a class leave the ingress queue, and their credits return (R44); a port that is not enabled returns none (R54). -/
def queueLeft (pt : Port) (c : Fin 4) (n : Nat) : Port :=
  if pt.st = .enabled then { pt with ing := Quad.set pt.ing c (giveCredit n (Quad.get pt.ing c)) } else pt

/-- Flits of an admitted request that are still in the ingress queue, with their class. -/
def queuedFlits (ch : Chip) (p rid : Nat) : List (Fin 4) :=
  (ch.clusters.flatMap fun e => (e.2.fwdIn.filter fun f => f.port = p && f.rid = rid && f.queued).map (·.cls)) ++
    ((getPort ch p).cur.fromAdmission.filter (·.rid = rid)).map (·.cls)

/-- The flits of a request still inside the ingress queue, the crossbar, clusters and the Currant are dropped. -/
def dropFlits (ch : Chip) (p rid : Nat) : Chip :=
  let mine (f : StagedFlit) := f.port = p && f.rid = rid
  let left := queuedFlits ch p rid
  let ch := { ch with clusters := Tbl.mapVals {} (fun _ cl =>
    { cl with
      fwdIn := cl.fwdIn.filter (!mine ·), staging := cl.staging.filter (!mine ·), retry := cl.retry.filter (!mine ·.flit)
      stuck := cl.stuck.filter (!mine ·), retIn := cl.retIn.filter fun o => !(o.port = p && o.rid = rid) }) ch.clusters }
  modPort ch p fun pt =>
    let pt := left.foldl (fun pt c => queueLeft pt c 1) pt
    { pt with cur := { pt.cur with
        fromReturn := pt.cur.fromReturn.filter (·.rid != rid)
        fromAdmission := pt.cur.fromAdmission.filter (·.rid != rid)
        repass := pt.cur.repass.filter (·.rid != rid) } }

/-- The IV as Table 2.6 places it: byte i on bits 8i + 7 : 8i. -/
def ivField (iv : BitVec 96) : BitVec 96 := BitVec.ofNat 96 (ofLE (toBE 12 iv.toNat))

/-- A one-flit STATUS message of a request (R50, R51). -/
def statusMsg (q : Req) (status detail : Nat) : EMsg :=
  { rid := q.rid, sb := q.sb, cls := q.cls, kind := 2, shard := sbShard q.sb, last := true, tail := some (status, detail),
    epoch := q.epoch, iv := ivField q.iv,
    keyidx := (match q.uses with | (_, u) :: _ => u.slot | [] => 0),
    kgen := (match q.uses with | (_, u) :: _ => u.kgen | [] => 0), ends := true }

/-- The ZERO_FILL re-emission of a request's HOLD-marked bytes (R76, R81, R234). -/
def zeroFillMsg (q : Req) (bytes status detail : Nat) (last : Bool) : EMsg :=
  { statusMsg q status detail with kind := 3, outlen := bytes, last := last }

/-- Bytes of HOLD-marked output of a message already driven. -/
def holdOf (m : EMsg) : Nat := if m.hold then m.sent else 0

/-- The closing messages of a request that ends with `status` and `detail` (R51, R81, R234), in place of its own: a
message under way is closed by one further flit, nothing further is started, and unless a head with LAST has been driven
a ZERO_FILL of the HOLD-marked bytes or one STATUS message follows. They stand where the request's own stood, in the order of
R46. -/
def closeMsgs (q : Req) (status detail : Nat) (ends : Bool) (ms : List EMsg) : List EMsg :=
  let own := ms.filter (·.rid = q.rid)
  let under := (own.filter (·.headDriven)).map fun m =>
    if m.kind = 3 then { m with ends := ends && m.last }
    else { m with data := [], closed := true, tail := some (status, detail), ends := ends && m.last }
  let lastOut := own.any fun m => m.headDriven && m.last
  let fin := if lastOut then []
    else if q.holdSent = 0 then [{ statusMsg q status detail with ends := ends }]
    else [{ zeroFillMsg q q.holdSent status detail true with ends := ends }]
  let at_ := (ms.findIdx? fun m => q.rid ≤ m.rid).getD ms.length
  (ms.take at_).filter (·.rid != q.rid) ++ under ++ fin ++ (ms.drop at_).filter (·.rid != q.rid)

/-- An ENCODE row's identity on its port. -/
def rowIdOf (sb : Sideband) : RowId :=
  { tenant := ⟨sbTenant sb % 1024, Nat.mod_lt _ (by decide)⟩, queue := ⟨sbQueue sb % 16, Nat.mod_lt _ (by decide)⟩,
    profile := ⟨sbProfile sb % 64, Nat.mod_lt _ (by decide)⟩, stripe := BitVec.ofNat 16 (sbStripe sb) }

/-- The open row of a number: the row that a request has claimed positions of, while it is open (R172). -/
def rowNo (ch : Chip) (p : Nat) (no : Option Nat) : Option Row :=
  match no with
  | some n => (getPort ch p).cur.rows.find? (·.no = n)
  | none => none

/-- The open row of an identity in the current tenant epoch (R161, R171). -/
def findRow (ch : Chip) (p : Nat) (id : RowId) : Option Row :=
  (getPort ch p).cur.rows.find? fun r => r.id = id && r.epoch = (getTenant ch id.tenant).epoch

/-- A message takes its place among the messages of a port: after those of its own and of older requests (R46). -/
def insertMsg (m : EMsg) (ms : List EMsg) : List EMsg :=
  ms.takeWhile (fun x => x.rid ≤ m.rid) ++ m :: ms.dropWhile fun x => x.rid ≤ m.rid

/-- Discard a row (R172): its buffers and head slots go, EV_ROW_DISCARDED is recorded, and a closing request that has not
ended ends after its own DATA messages with ST_ABORTED (R173). -/
def discardRow (ch : Chip) (p : Nat) (row : Row) (cause detail : Nat) : Chip :=
  let ch := modPort ch p fun pt => { pt with cur := { pt.cur with rows := pt.cur.rows.filter (·.no != row.no) } }
  let ch := event ch 0x0701 0 (some row.id.tenant)
    [(p, 6), (row.id.queue, 4), (row.id.profile, 6), (row.id.stripe.toNat, 16), (row.claimed, 32), (cause, 8)]
  match row.closer with
  | none => ch
  | some rid =>
    match findReq (getPort ch p) rid with
    | none => ch
    | some q =>
      if q.dead then ch
      else
        modPort ch p fun pt =>
          let keep := pt.msgs.filter fun m => !(m.rid = rid && m.kind = 1 && !m.headDriven)
          let under := keep.map fun m =>
            if m.rid = rid && m.kind = 1 then
              { m with data := [], closed := true, tail := some (stAborted, detail), ends := m.last }
            else m
          let lastOut := under.any fun m => m.rid = rid && m.headDriven && m.last
          { pt with msgs := if lastOut then under else insertMsg (statusMsg q stAborted detail) under }

/-- End an admitted request with the effects of R51: R81 for one with a verdict, else a closing flit and a STATUS. The
row that an ENCODE is part of is discarded (cause 1 of Table 7.5). -/
def endReq (ch : Chip) (p : Nat) (q : Req) (status detail : Nat) : Chip :=
  if q.dead then ch
  else
    let ch := dropFlits ch p q.rid
    let ch := modPort ch p fun pt =>
      { pt with
        msgs := closeMsgs q status detail true pt.msgs
        reqs := modifyFirst (·.rid = q.rid) (fun r => { r with dead := true, holdData := [], accs := [] }) pt.reqs
        ing := Quad.map (fun _ ic => if ic.run = .admitted q.rid then { ic with run := .discard, gap := 0 } else ic) pt.ing }
    match rowNo ch p q.row with
    | some row => discardRow ch p row 1 0x60
    | none => ch

/-! ### Live ranges -/

/-- A window's descriptor leaves the fetch queue (R333). -/
def dropFetch (ch : Chip) (j : Nat) : Chip := { ch with fetchQ := ch.fetchQ.filter (·.1 != j) }

/-- A range ends by a tenant reset: as an abort with WRITTEN = 0, EV_REKEY_END, and removal (R212). -/
def endRange (ch : Chip) (j : Nat) (r : Range) : Chip :=
  let ch := setRange (dropFetch ch j) j none
  event ch 0x0607 0 (some r.tenant) [(j, 12), (r.o, 20), (r.n, 20), (r.b, 64)]

/-- Ranges of a tenant, by job. -/
def rangesOf (ch : Chip) (t : Nat) : List (Nat × Range) :=
  ch.ranges.filterMap fun e => match e.2 with | some r => if r.tenant = t then some (e.1, r) else none | none => none

/-! ### The fence of a stream port (R54) -/

/-- The record of an admitted request. -/
def recordOf (q : Req) (detail : Nat) : FenceRec :=
  let m := statusMsg q stAborted detail
  { sb := q.sb, cls := q.cls, zf := q.holdSent, status := stAborted, detail := detail, epoch := q.epoch,
    keyidx := m.keyidx, kgen := m.kgen, iv := m.iv, admitted := true }

/-- The record of messages that belong to no admitted request: a rejection, which has but a STATUS, keeps its STATUS and
DETAIL; a request that a tenant reset ended is reported with 0x43, also where a ZERO_FILL with its failed verdict is under way
(R54, R82, R234). -/
def recordOfMsgs (rid : Nat) (ms : List EMsg) : Option FenceRec :=
  match ms.filter (·.rid = rid) with
  | [] => none
  | m :: rest =>
    let all := m :: rest
    let zf := all.foldl (fun n m => max n (if m.kind = 3 then m.outlen else holdOf m)) 0
    let st := (all.findSome? (·.tail)).getD (stAborted, 0x43)
    let st := if all.any (·.kind != 2) || st = (stAborted, 0x45) then (stAborted, 0x43) else st
    some { sb := m.sb, cls := m.cls, zf := zf, status := st.1, detail := st.2, epoch := m.epoch, keyidx := m.keyidx,
           kgen := m.kgen, iv := m.iv }

/-- The records of the messages in one class of the ingress queue (R54): waiting heads with 0x43, or 0x44 for the one that an
overrun ended (R45), a rejection that waits for its tail with its own STATUS. -/
def recordsOfIngress (ic : IngClass) (c : Fin 4) : List FenceRec :=
  let rej := match ic.run with
    | .rejected sb st dt k g => [{ sb := sb, cls := c, status := st, detail := dt, keyidx := k, kgen := g : FenceRec }]
    | _ => []
  rej ++ ic.waiting.map fun w =>
    { sb := w.sb, cls := c, status := stAborted, detail := if w.ending = some (stAborted, 0x44) then 0x44 else 0x43
      keyidx := (sbNamed w.sb).1, kgen := (sbNamed w.sb).2 : FenceRec }

/-- Fence a stream port as a whole (R54). `detailOf` gives the DETAIL of a request; every request is recorded and ends,
every open row of the Currant is discarded (Table 7.5), and the port neither takes nor drives anything. -/
def fencePort (ch : Chip) (p : Nat) (cause : Nat) (detailOf : Nat → Nat) : Chip :=
  let pt := getPort ch p
  let reqRecs := pt.reqs.map fun q => recordOf q (detailOf q.rid)
  let others := (pt.msgs.map (·.rid)).eraseDups.filter fun rid => (findReq pt rid).isNone
  let msgRecs := others.filterMap fun rid => recordOfMsgs rid pt.msgs
  let ingRecs := recordsOfIngress pt.ing.c0 0 ++ recordsOfIngress pt.ing.c1 1 ++ recordsOfIngress pt.ing.c2 2 ++
    recordsOfIngress pt.ing.c3 3
  let reqs := pt.reqs
  let rows := pt.cur.rows
  let ch := setPort ch p { pt with st := .fenced }
  let ch := reqs.foldl (fun ch q => dropFlits ch p q.rid) ch
  let ch := modPort ch p fun pt =>
    { pt with
      st := .fenced, cause := cause, recs := (pt.recs.map fun r => { r with zsent := 0 }) ++ reqRecs ++ msgRecs ++ ingRecs, reqs := [], msgs := []
      ing := Quad.map (fun _ ic => { ic with waiting := [], run := .idle, gap := 0 }) pt.ing
      stall := Quad.all 0, stalled := Quad.all false, pe := {}, lastHead := false
      cur := { pt.cur with rows := [], fromReturn := [], fromAdmission := [], repass := none } }
  let ch := rows.foldl (fun ch row => discardRow ch p row 3 0x60) ch
  reqs.foldl releaseReq ch

/-! ### Tenant reset (R233 to R235) -/

/-- Kept tweaks and pins of a tenant are discarded (Table 10.4 step 4). -/
def dropTenantKeys (ch : Chip) (t : Nat) : Chip :=
  let ch := { ch with clusters := Tbl.mapVals {} (fun _ cl =>
    { cl with tweaks := cl.tweaks.filter (·.tenant != t) }) ch.clusters }
  let pinned := ch.keys.pins.filterMap fun e => match e.2 with
    | some (slot, _, _) => if dTenant (slotDesc ch slot) = t then some slot else none
    | none => none
  pinned.foldl (fun ch k => dropPin (setDesc ch k (setFld (slotDesc ch k) 94 1 0)) k) ch

/-- One port's share of a tenant reset (Table 10.4 steps 1, 2, 3 and 5): requests end through the completions of R234, those that
had ended before among them (DESIGN CHOICE, log entry 157), and leave the context store; waiting heads are left to check 9; rows
are discarded and pattern entries made invalid. -/
def resetOnPort (t : Nat) (ch : Chip) (p : Nat) : Chip :=
  let pt := getPort ch p
  let qs := pt.reqs.filter fun q => sbTenant q.sb = t
  let ch := qs.foldl (fun ch q =>
    let ch := dropFlits ch p q.rid
    let ch := modPort ch p fun pt =>
      { pt with
        msgs := closeMsgs q stAborted 0x45 false pt.msgs
        reqs := pt.reqs.filter (·.rid != q.rid)
        ing := Quad.map (fun _ ic =>
          if ic.run = .admitted q.rid || ic.run = .ended q.rid then { ic with run := .discard, gap := 0 } else ic) pt.ing }
    releaseReq ch q) ch
  let ch := modPort ch p fun pt =>
    { pt with ing := Quad.map (fun _ ic =>
        { ic with waiting := ic.waiting.map fun w => if sbTenant w.sb = t then { w with atReset := true } else w }) pt.ing }
  let rows := (getPort ch p).cur.rows.filter fun r => r.id.tenant.val = t
  let ch := rows.foldl (fun ch row => discardRow ch p row 4 0x60) ch
  modPort ch p fun pt =>
    { pt with cur := { pt.cur with
        patterns := Tbl.mapVals 0 (fun _ h => if fld h 66 10 = t then 0 else h) pt.cur.patterns } }

/-- The tenant's mailbox at a reset (Table 10.4 step 7): slots not yet started answer ST_ABORTED, and its jobs go. -/
def abortSlots (ch : Chip) (t : Nat) : Chip :=
  let m := getMb ch t
  let m' := m.order.foldl (fun (m : Mailbox) s =>
    let sl := Tbl.get {} m.slots s
    let done : MbSlot := { sl with st := .done, resp := mkResp (cOpcode sl.cmd) (cb sl.cmd 2 2) stAborted 0 0 0 0 }
    { m with slots := Tbl.set {} m.slots s done }) m
  let ch := setMb ch t { m' with order := [], jobs := [] }
  if m.order.isEmpty then ch else attRaise ch t 1

/-- Start a tenant reset at T0 (R233): the tenant becomes RESETTING, its epoch advances, and its resources are reclaimed.
`toward` is 1 ENABLED, 2 DISABLED, 3 FAULTED; `cause` as R273. What Table 10.4 reclaims over the sweep is reclaimed in
this step, since R231 makes it absent from the next cycle (log entry 19). -/
def tenantReset (ch : Chip) (t toward cause : Nat) (causes : List Nat) : Chip :=
  let tn := getTenant ch t
  let old := tn.epoch
  let new := (old + 1) % 256
  let ended := ch.ports.foldl (fun n e => n + (e.2.reqs.filter fun q => sbTenant q.sb = t).length) 0
  let tn : Tenant := { tn with
    st := .resetting, epoch := new, toward := toward, cause := cause, ended := ended
    since := nowUs ch, causes := tn.causes ++ causes, purging := false }
  let ch := setTenant ch t tn
  let ch := event ch 0x0201 0 (some t) [(cause, 8), (old, 8), (new, 8), (ended, 32)]
  let ch := (ch.ports.map (·.1)).foldl (resetOnPort t) ch
  let ch := dropTenantKeys ch t
  let ch := (rangesOf ch t).foldl (fun ch jr => endRange ch jr.1 jr.2) ch
  let ch := abortSlots ch t
  modMb ch t fun m => { m with keyData := [], blob := [] }

end Sys2Proof.Machine
end

