-- ==== Sys2Proof/Machine/Transform.lean ====
section
/-! DEFINITION. What the cipher makes of a request's payload (03_transforms.md): the data units with their numbers and
keys, the output of each operation, how much of it a part of the payload determines, and the verdict. -/

namespace Sys2Proof.Machine

/-- A key as a cluster holds it in its key file, with its tag material (R64). -/
structure KeySet where
  mode : Nat
  k1 : List Byte
  k2 : List Byte
  h : List Byte
  ke : List Byte
  family : List Byte
deriving DecidableEq, Repr

/-- The key of a slot as its MODE uses it (Tables 3.1 and 3.2). -/
def keySet (mode : Nat) (key : List Byte) (family : BitVec 128) : KeySet :=
  let fam := bvBytes 16 family
  let tag := if isTagged mode then tagMaterial (keyK1 mode key) fam else ([], [])
  { mode := mode, k1 := keyK1 mode key, k2 := keyK2 mode key, h := tag.1, ke := tag.2, family := fam }

/-- A data unit: its number, its length and its key. -/
structure DataUnit where
  du : Nat
  len : Nat
  key : KeySet
deriving DecidableEq, Repr

/-- Lengths of the data units of `len` bytes under unit size `u` (R34, R58). -/
def unitLens (len u : Nat) : List Nat :=
  if u = 0 then [len] else (List.range (unitCount len u)).map fun i => min u (len - i * u)

/-- Encrypt data units in order, each followed by its tag under MODE 0x3 and 0x4 (R58 to R63). -/
def encUnits : List DataUnit → List Byte → List Byte
  | [], _ => []
  | n :: ns, data =>
    let c := xtsEncUnit n.key.k1 (aesEnc n.key.k2 (duBytes n.du)) (data.take n.len)
    let t := if isTagged n.key.mode then unitTag n.key.h n.key.ke n.key.family n.du c else []
    c ++ t ++ encUnits ns (data.drop n.len)

/-- Decrypt data units in order; under MODE 0x3 and 0x4 each is followed by its tag. -/
def decUnits : List DataUnit → List Byte → List Byte
  | [], _ => []
  | n :: ns, data =>
    let tag := if isTagged n.key.mode then 16 else 0
    xtsDecUnit n.key.k1 (aesEnc n.key.k2 (duBytes n.du)) (data.take n.len) ++ decUnits ns (data.drop (n.len + tag))

/-- The first unit whose tag does not verify (R63, R72), counted from `i`. -/
def badUnit : List DataUnit → List Byte → Nat → Option Nat
  | [], _, _ => none
  | n :: ns, data, i =>
    let c := data.take n.len
    if unitTag n.key.h n.key.ke n.key.family n.du c = (data.drop n.len).take 16 then
      badUnit ns (data.drop (n.len + 16)) (i + 1)
    else some i

/-- Bytes of a unit of length `len` that its first `a` bytes determine: whole blocks, and with stealing the last two
blocks only with the whole unit (R60). -/
def unitDet (len a : Nat) : Nat :=
  if len ≤ a then len
  else if len % 16 = 0 then 16 * (a / 16)
  else min (16 * (a / 16)) (16 * (len / 16 - 1))

/-- Output bytes that the first `n` input bytes of data units determine; `tin` and `tout` are the tag bytes after each
unit on input and on output. -/
def unitsDet (tin tout : Nat) : List Nat → Nat → Nat
  | [], _ => 0
  | l :: ls, n =>
    if l + tin ≤ n then l + tout + unitsDet tin tout ls (n - (l + tin))
    else if l ≤ n then l
    else unitDet l n

/-! ### The units of a request -/

/-- The key that serves unit `u` of a request (R204). -/
def useAt : List (Nat × KeyUse) → Nat → KeyUse
  | [], _ => {}
  | (n, k) :: rest, u => if u < n then k else useAt rest (u - n)

/-- The key bytes a cluster works with: its key file's copy, else the key cache's (R123, R124). -/
def clusterKey (ch : Chip) (c slot : Nat) : List Byte :=
  match (getCluster ch c).keyFile.find? (·.slot = slot) with
  | some e => e.key
  | none => slotKey ch slot

def useKeySet (ch : Chip) (c : Nat) (u : KeyUse) : KeySet := keySet u.mode (clusterKey ch c u.slot) u.family

/-- The positions of a DECODE's units in decode order (R169). -/
def decodeOrder (q : Req) : List Nat :=
  ((readSet q.ck q.cm q.erased).filter (· < q.ck)) ++ (maskPositions q.ck q.erased)

/-- Lengths of the data units that a cluster works on. -/
def reqLens (q : Req) : List Nat := unitLens (dataLen q) (reqUnit q)

/-- The data units of a request under its (old) keys (R58, R160). -/
def reqUnits (ch : Chip) (q : Req) : List DataUnit :=
  let order := decodeOrder q
  (reqLens q).zipIdx.map fun lu =>
    let off := if sbOp q.sb = opDecode then order.getD lu.2 0 else lu.2
    { du := sbDunit q.sb + off, len := lu.1, key := useKeySet ch q.cluster (useAt q.uses lu.2) }

/-- The same units under the new key of a BRAMBLE_RETURN. -/
def newUnits (ch : Chip) (q : Req) (n : KeyUse) : List DataUnit :=
  let ks := useKeySet ch q.cluster n
  (reqLens q).zipIdx.map fun lu => { du := sbDunit q.sb + lu.2, len := lu.1, key := ks }

/-- Bytes that enter the cluster for a request (Table 2.2; R168 for DECODE). -/
def clusterIn (q : Req) : Nat :=
  if sbOp q.sb = opDecode then q.ck * 4112 else if sbOp q.sb = opRebuild then 0 else q.payload

/-- Tag bytes after each unit. -/
def tagBytes (mode : Nat) : Nat := if isTagged mode then 16 else 0

/-- The AAD length of a GCM request. -/
def reqAad (q : Req) : Nat := sbAadlen q.sb

/-- Plaintext or ciphertext output of an operation for a complete cluster input (Table 2.3). -/
def reqOutput (ch : Chip) (q : Req) (input : List Byte) : List Byte :=
  let op := sbOp q.sb
  let mode := sbMode q.sb
  let key := (useKeySet ch q.cluster (useAt q.uses 0)).k1
  if op = opEncrypt || op = opEncode then
    if isXts mode then encUnits (reqUnits ch q) input
    else
      let iv := (bvBytes 12 q.iv).reverse
      if mode = 7 then gcmTag key iv input []
      else
        let aad := input.take (reqAad q)
        let c := gcmCtr key iv (input.drop (reqAad q))
        c ++ gcmTag key iv aad c
  else if op = opDecrypt || op = opDecode then
    if isXts mode then decUnits (reqUnits ch q) input
    else gcmCtr key (input.take 12) ((input.drop (16 + reqAad q)).take (sbLen q.sb))
  else if op = opBramble then
    match q.newUse with
    | some n => encUnits (newUnits ch q n) (decUnits (reqUnits ch q) input)
    | none => []
  else []

/-- Output bytes that the first `n` bytes of cluster input determine. -/
def outDet (q : Req) (n : Nat) : Nat :=
  let op := sbOp q.sb
  let mode := sbMode q.sb
  if op = opEncrypt || op = opEncode then
    if isXts mode then unitsDet 0 (tagBytes mode) (reqLens q) n
    else if mode = 7 then (if q.payload ≤ n then 16 else 0)
    else if q.payload ≤ n then sbLen q.sb + 16
    else min (n - reqAad q) (sbLen q.sb)
  else if op = opDecrypt || op = opDecode then
    if isXts mode then unitsDet (tagBytes mode) 0 (reqLens q) n
    else min (n - 16 - reqAad q) (sbLen q.sb)
  else if op = opBramble then unitsDet (tagBytes mode) (tagBytes mode) (reqLens q) n
  else 0

/-- OUTLEN of the data a request gives (Table 2.3). -/
def outLen (q : Req) : Nat := outDet q (clusterIn q)

/-- The first failing unit of a complete cluster input, by the index that R73 and R169 record; 0 for GCM and GMAC. -/
def judge (ch : Chip) (q : Req) (input : List Byte) : Option Nat :=
  let op := sbOp q.sb
  let mode := sbMode q.sb
  if isXts mode then
    match badUnit (reqUnits ch q) input 0 with
    | some i => some (if op = opDecode then (decodeOrder q).getD i 0 else i)
    | none => none
  else
    let key := (useKeySet ch q.cluster (useAt q.uses 0)).k1
    let iv := input.take 12
    let body := (input.drop 16).take (reqAad q + sbLen q.sb)
    let tag := if mode = 7 then gcmTag key iv body []
      else gcmTag key iv (body.take (reqAad q)) (body.drop (reqAad q))
    if tag = (input.drop (16 + reqAad q + sbLen q.sb)).take 16 then none else some 0

/-- DETAIL of a failed verdict (Table 3.3). -/
def failDetail (mode : Nat) : Nat := if isXts mode then 0x52 else 0x51

/-- An authentication failure charged to a tenant (R238): counted in the running interval, with the alarm of the failure
that reaches AUTH_LIMIT. -/
def authFail (ch : Chip) (t : Nat) (line : Bool) : Chip :=
  let tn := getTenant ch t
  let n := satInc 16 tn.authCount
  let ch := setTenant ch t { tn with authCount := n, authLine := if tn.authCount = 0 then line else tn.authLine }
  let tn := getTenant ch t
  if !tn.authAlarmed && tn.authLimit != 0 && tn.authLimit ≤ n then
    let ch := event ch 0x0203 2 (some t) [(n, 16), (if tn.authLine then 1 else 0, 1)]
    let ch := attRaise (modTenant ch t fun tn => { tn with alarm := true, authAlarmed := true }) 0x400 3
    if tn.authFault then raise ch (srcTenantAlarm t) fkTenantAlarm (ctxTenant t 0) else ch
  else ch

end Sys2Proof.Machine
end

