-- ==== Sys2Proof/Machine/Crossbar.lean ====
section
/-! DEFINITION. The dispatch crossbar (R24, 01_structure.md; R88, 04_scheduling.md): the inputs of its forward half, one for
each cluster, and of its return half, one for the outputs of each cluster; and the space of the egress buffers (R93,
R101). -/

namespace Sys2Proof.Machine

/-! ### The egress buffer (R93, R101) -/

/-- Flits of a request in the egress buffer. Held output, parity and the output of a REBUILD have their own buffers (R22, R162,
R170). -/
def reqFlits (pt : Port) (rid : Nat) : Nat :=
  pt.msgs.foldl (fun n m =>
    if m.rid != rid || m.heldFlag || m.kind = 1 || sbOp m.sb = opRebuild then n else n + ceilDiv m.data.length 256) 0

/-- Requests and rejections of a port whose output marked LAST has not been driven, each with its class. -/
def owedOutput (pt : Port) : List (Nat × Fin 4) :=
  ((pt.reqs.map fun q => (q.rid, q.cls)) ++ pt.msgs.map fun m => (m.rid, m.cls)).eraseDups

/-- Messages of the ingress that have been rejected and whose STATUS waits for their tail. -/
def rejectsWaiting (pt : Port) (bulk : Bool) : Nat :=
  let one (ic : IngClass) : Nat := match ic.run with | .rejected .. => 1 | _ => 0
  (if bulk then 0 else one pt.ing.c0) + one pt.ing.c1 + one pt.ing.c2 + one pt.ing.c3

/-- Flits of the egress buffer in use: what each request has in it, or the one flit that R101 reserves for its STATUS or
tail, with the flits kept for the reports of a fence (R54). `bulk` leaves class 0 out. -/
def egressUsed (pt : Port) (bulk : Bool) : Nat :=
  ((owedOutput pt).foldl (fun n (r : Nat × Fin 4) => if bulk && r.2 = 0 then n else n + max 1 (reqFlits pt r.1)) 0) +
    rejectsWaiting pt bulk + (pt.recs.filter fun r => !(bulk && r.cls = 0)).length

/-- The egress buffer has a free flit for a class: 512 flits, 32 of them for class 0 alone (R93). -/
def egressFree (pt : Port) (c : Fin 4) : Bool := egressUsed pt false < 512 && (c = 0 || egressUsed pt true < 480)

/-- An output flit of a request has room: a free flit, its own reserved flit (R103), or, for class 0, egress credit, under
which class 0 is never stalled (R93). -/
def egressRoom (pt : Port) (c : Fin 4) (rid : Nat) : Bool :=
  egressFree pt c || reqFlits pt rid = 0 || (c = 0 && Quad.get pt.credit 0 != 0)

/-- Flits of a request inside its cluster and its Currant, whose output the egress buffer must take. -/
def underWay (ch : Chip) (p rid : Nat) : Nat :=
  match findReq (getPort ch p) rid with
  | none => 0
  | some q =>
    if q.held || sbOp q.sb = opVerify || sbOp q.sb = opRebuild then 0
    else
      let x := getCluster ch q.cluster
      let cur := (getPort ch p).cur
      ((x.staging ++ x.stuck ++ x.retry.map (·.flit)).filter fun f => f.port = p && f.rid = rid).length +
        (x.retIn.filter fun o => o.port = p && o.rid = rid).length +
        ((cur.fromReturn ++ cur.repass.toList).filter fun f => f.fromReturn && f.rid = rid).length

/-- Flits of the egress buffer in use or promised to flits under way. -/
def egressPromised (ch : Chip) (p : Nat) (bulk : Bool) : Nat :=
  let pt := getPort ch p
  ((owedOutput pt).foldl (fun n (r : Nat × Fin 4) =>
    if bulk && r.2 = 0 then n else n + max 1 (reqFlits pt r.1 + underWay ch p r.1)) 0) +
    rejectsWaiting pt bulk + (pt.recs.filter fun r => !(bulk && r.cls = 0)).length

/-- A further flit of a request finds room for its output: a flit that nothing has been promised, its own reserved flit (R101,
R103), or, for class 0, egress credit (R93). What has entered a cluster therefore never waits there for the egress, and the
cluster's other ports do not wait for it (R103). -/
def enterRoom (ch : Chip) (p : Nat) (c : Fin 4) (rid : Nat) : Bool :=
  (egressPromised ch p false < 512 && (c = 0 || egressPromised ch p true < 480)) ||
    reqFlits (getPort ch p) rid + underWay ch p rid = 0 || (c = 0 && Quad.get (getPort ch p).credit 0 != 0)

/-! ### Arbitration (R88) -/

/-- The place of the flit that an input grants, among flits given as port, class and whether they can be accepted: the
oldest of class 0, else the oldest of the port whose turn it is in round robin after `last`. -/
def grantIdx (last : Nat) (q : List (Nat × Fin 4 × Bool)) : Option Nat :=
  let ready := q.zipIdx.filter fun e => e.1.2.2
  let turn (e : (Nat × Fin 4 × Bool) × Nat) : Nat := (e.1.1 + 63 - last) % 64
  match ready.find? fun e => e.1.2.1 = 0 with
  | some e => some e.2
  | none =>
    (ready.foldl (fun (best : Option ((Nat × Fin 4 × Bool) × Nat)) e =>
      match best with
      | some b => if turn e < turn b then some e else some b
      | none => some e) none).map (·.2)

/-- A flit waits for its input of the forward half. -/
def pushForward (ch : Chip) (cl : Nat) (f : StagedFlit) : Chip :=
  modCluster ch cl fun x => { x with fwdIn := x.fwdIn ++ [f] }

/-- Flits that have reached the cluster and wait for issue, those among them of which a block waits for its retry. -/
def waitingIssue (x : Cluster) : List StagedFlit :=
  x.staging ++ x.stuck ++ (x.retry.map (·.flit)).filter (·.done < 16)

/-- Class-0 slots in use (R89). -/
def slotsUsed (x : Cluster) : Nat := ((waitingIssue x).filter fun f => f.cls = 0).length

/-- Flits that the staging of each of the classes 1 to 3 holds before their first pass (DESIGN CHOICE, log entry 152). -/
def lowerStaging : Nat := 16

/-- A flit belongs to a BRAMBLE_RETURN. -/
def isBramble (ch : Chip) (f : StagedFlit) : Bool :=
  match findReq (getPort ch f.port) f.rid with
  | some q => sbOp q.sb = opBramble
  | none => false

/-- Flits of BRAMBLE_RETURN in a cluster: each takes its place in the Bramble staging of 16 KiB (Table 1.4) when it enters, so that
its first pass never waits for it. -/
def bramblesHeld (ch : Chip) (x : Cluster) : Nat :=
  ((x.staging ++ x.stuck ++ x.retry.map (·.flit)).filter (isBramble ch)).length

/-- A cluster can take a flit: there is a free class-0 slot or place of its class (R89), a place in the Bramble staging for a
BRAMBLE_RETURN (R100), and room for its output (R102, R103). -/
def mayEnter (ch : Chip) (cl : Nat) (f : StagedFlit) : Bool :=
  let x := getCluster ch cl
  (if f.cls = 0 then decide (slotsUsed x < cl0Slots ch.cfg cl)
   else decide (((waitingIssue x).filter fun g => g.cls = f.cls && !g.second).length < lowerStaging)) &&
  (!isBramble ch f || bramblesHeld ch x < 64) &&
  (match findReq (getPort ch f.port) f.rid with
   | some q => q.held || sbOp q.sb = opVerify || enterRoom ch f.port f.cls f.rid
   | none => true)

/-- The forward input of a cluster accepts one flit that the cluster can take (R88, R89). One that waited in the ingress queue leaves
it there, and its credit returns (R44). A class-0 grant leaves the round robin of the others where it stands (DESIGN CHOICE, log
entry 124). -/
def forwardGrant (ch : Chip) (cl : Nat) : Chip :=
  let x := getCluster ch cl
  match grantIdx x.fwdLast (x.fwdIn.map fun f => (f.port, f.cls, mayEnter ch cl f)) with
  | none => ch
  | some i =>
    match x.fwdIn[i]? with
    | none => ch
    | some f =>
      let ch := setCluster ch cl { x with
        fwdIn := x.fwdIn.eraseIdx i, staging := x.staging ++ [{ f with queued := false }]
        fwdLast := if f.cls = 0 then x.fwdLast else f.port }
      if f.queued then modPort ch f.port fun pt => queueLeft pt f.cls 1 else ch

/-- Change the data message of a request. -/
def modOut (ch : Chip) (p rid : Nat) (f : EMsg → EMsg) : Chip :=
  modPort ch p fun pt => { pt with msgs := modifyFirst (fun m => m.rid = rid && (m.kind = 0 || m.kind = 4)) f pt.msgs }

/-- The output of a request goes to the hold buffer: it is held and its verdict is not final (R75). -/
def toHold (q : Req) : Bool := q.held && match q.verdict with | .final _ => false | _ => true

/-- The tail of a request's data message does not wait for its verdict (R78, R80). -/
def tailDecided (q : Req) : Bool := !(hasVerdict (sbOp q.sb) (sbMode q.sb)) || sbOp q.sb = opBramble

/-- An output can be accepted: the Currant and the hold buffer always take it (R102), the egress buffer when it has room. -/
def outputFits (ch : Chip) (o : OutFlit) : Bool :=
  let pt := getPort ch o.port
  match findReq pt o.rid with
  | none => true
  | some q => o.coding.isSome || q.held || egressRoom pt o.cls o.rid

/-- An output leaves the return half: for the Currant, the hold buffer or the egress buffer (R24). -/
def placeOutput (ch : Chip) (o : OutFlit) : Chip :=
  match findReq (getPort ch o.port) o.rid with
  | none => ch
  | some q =>
    match o.coding with
    | some (pos, off) =>
      modPort ch o.port fun pt => { pt with cur := { pt.cur with
        fromReturn := pt.cur.fromReturn ++
          [{ rid := o.rid, cls := o.cls, fromReturn := true, pos := pos, off := off, bytes := o.bytes }] } }
    | none =>
      if toHold q then modReq ch o.port o.rid fun q => { q with holdData := q.holdData ++ o.bytes }
      else modOut ch o.port o.rid fun m =>
        { m with data := m.data ++ o.bytes, tail := if o.fin && tailDecided q then some (stOk, 0) else m.tail }

/-- The return input of a cluster accepts one output (R88). Each cluster has its own input, so that only the outputs of one
cluster compete; a class-0 grant leaves the round robin of the others where it stands (DESIGN CHOICE, log entry 124). -/
def returnGrant (ch : Chip) (cl : Nat) : Chip :=
  let x := getCluster ch cl
  match grantIdx x.retLast (x.retIn.map fun o => (o.port, o.cls, outputFits ch o)) with
  | none => ch
  | some i =>
    match x.retIn[i]? with
    | none => ch
    | some o =>
      placeOutput (setCluster ch cl { x with
        retIn := x.retIn.eraseIdx i, retLast := if o.cls = 0 then x.retLast else o.port }) o

/-- Work of one core cycle of a cluster's issue stage, between the grants of its two inputs in that cycle (DESIGN CHOICE,
log entry 124). -/
def clusterCycle (ch : Chip) (cl : Nat) (work : Chip → Chip) : Chip := returnGrant (work (forwardGrant ch cl)) cl

end Sys2Proof.Machine
end

