-- ==== Sys2Proof/Machine/Shadow.lean ====
section
/-! DEFINITION. The critical arrays of Table 17.4 and their inverted copies (17_boundary.md, R391, R392). -/

namespace Sys2Proof.Machine

/-! ### SRAM arrays: both copies are stored -/

/-- The covered bits of a region entry as it stands, SWEEP and SSTATE in their places (Table 8.2). -/
def regionWord (c : Cfg) (ch : Chip) (r : Nat) : BitVec 256 :=
  let w := getSweep ch r
  setFld (setFld (regionOf c r) 130 46 w.bound) 66 2 w.state

/-- Their inverted copy. -/
def regionWordInv (c : Cfg) (ch : Chip) (r : Nat) : BitVec 256 :=
  let w := Tbl.get (BitVec.allOnes 48) ch.sweepsInv r
  setFld (setFld (Tbl.get (BitVec.allOnes 256) c.regionsInv r) 130 46 (fld w 2 46)) 66 2 (fld w 0 2)

/-- The two copies of a slot's descriptor, of a line key descriptor and of a region entry, over the bits covered. -/
def slotCopies (ch : Chip) (k : Nat) : BitVec 256 × BitVec 256 :=
  (slotDesc ch k >>> 76, (Tbl.get (BitVec.allOnes 180) ch.keys.descInv k).setWidth 256)
def lineKeyCopies (ch : Chip) (e : Nat) : BitVec 256 × BitVec 256 :=
  ((lineDesc ch e >>> 76).setWidth 256, (Tbl.get (BitVec.allOnes 52) ch.keys.ldescInv e).setWidth 256)
def regionCopies (c : Cfg) (ch : Chip) (r : Nat) : BitVec 256 × BitVec 256 := (regionWord c ch r, regionWordInv c ch r)

/-- A value and its inverted copy disagree in one of the `w` bits covered. -/
def disagree {n : Nat} (w : Nat) (x : BitVec n × BitVec n) : Bool := fld x.1 0 w != fld (~~~x.2) 0 w

/-- What a read of an entry finds (R392): the comparator's unit number and the entry, when the copies disagree. -/
def slotClash (ch : Chip) (k : Nat) : Option (Nat × Nat) := if disagree 180 (slotCopies ch k) then some (0x10, k) else none
def lineKeyClash (ch : Chip) (e : Nat) : Option (Nat × Nat) :=
  if disagree 52 (lineKeyCopies ch e) then some (0x11, e) else none
def regionClash (ch : Chip) (g r : Nat) : Option (Nat × Nat) :=
  if disagree 256 (regionCopies ch.cfg ch r) then some (0x12 + g, r) else none

/-- A disagreement raises FK_SHADOW with the entry in CONTEXT (R392). -/
def raiseShadow (ch : Chip) (x : Nat × Nat) : Chip := raise ch (srcSub x.1) fkShadow (ctxPlain x.2)

/-! ### Flop arrays -/

/-- An entry of the unit state table (R376). -/
def unitWord (u : UnitSt) : Nat := field 0 8 (stateCode u.live) ||| field 8 16 u.sgen ||| field 24 8 u.cause

/-- The code of a tenant state (Tables 14.25 and 12.6). -/
def tenantCode (st : TState) : Nat :=
  match st with
  | .disabled => 0
  | .enabled => 1
  | .resetting => 2
  | .faulted => 3

/-- An entry of the tenant table: state, epoch, quotas, queues and policy (Table 10.1). -/
def tenantWord (t : Tenant) (c : TenantCfg) : Nat :=
  field 0 256 c.queues.toNat ||| field 256 168 c.budgets.toNat ||| field 424 2 (tenantCode t.st) ||| field 426 8 t.epoch |||
    field 434 32 c.holdLimit ||| field 466 1 c.noHold.toNat ||| field 467 1 c.clearDek.toNat |||
    field 468 8 c.modes ||| field 476 16 c.accQuota ||| field 492 16 c.patQuota ||| field 508 16 c.rangeQuota |||
    field 524 32 c.slotBase ||| field 556 32 c.slotSize ||| field 588 16 c.lkeyBase ||| field 604 16 c.lkeySize |||
    field 620 32 c.pinQuota ||| field 652 16 t.authLimit ||| field 668 1 t.authFault.toNat

/-- Damson's lease state: highest reserved and next lease, hand-out position and IV slot in force. -/
def leaseWord (m : Damson) : Nat :=
  let lease (l : Option Nat) : Nat := match l with | some n => 2 * (n % 2 ^ 44) + 1 | none => 0
  field 0 45 (lease m.highest) ||| field 45 45 (lease (m.next.map (·.1))) ||| field 90 17 m.sub ||| field 107 12 m.slot

/-- The severity that the map holds for a sticky index, and its floor (R348). -/
def severityWord (ch : Chip) (i : Nat) : Nat :=
  field 0 4 (match (getSticky ch i).sev with | some v => v + 1 | none => 0) ||| field 4 4 (floorSev i)

/-- Rind's state: the AON copy of RIND_FUSED, the TRIPPED latches and the factory lock image. -/
def rindWord (s : State) : Nat := s.aon.fused.toNat ||| s.aon.tripped.toNat * 2 ^ 64 ||| s.otp.locked.toNat * 2 ^ 128

/-! ### All of them -/

/-- The two copies of an entry, over the bits that Table 17.4 covers; none of a copy that is not live. Every write of a flop array
writes the value and its inverse, so what it holds beside the value is the inverse, but for upsets (DEDUCED, log entry 166). -/
def shadowCopies (s : State) (item : ShadowEntry) : Option (BitVec 1024 × BitVec 1024) :=
  let ch := s.chip
  let sram (x : BitVec 256 × BitVec 256) : Option (BitVec 1024 × BitVec 1024) := some (x.1.setWidth 1024, x.2.setWidth 1024)
  let flops (n : Nat) : Option (BitVec 1024 × BitVec 1024) := some (BitVec.ofNat 1024 n, ~~~BitVec.ofNat 1024 n)
  match item with
  | .slot k => sram (slotCopies ch k)
  | .lineKey e => sram (lineKeyCopies ch e)
  | .region _ r older =>
    if older && !ch.live2 then none else sram (regionCopies (if older then ch.cfgOld else ch.cfg) ch r)
  | .unit id => flops (unitWord (getUnit ch id.toNat))
  | .tenant t older =>
    if older && !ch.live2 then none
    else flops (tenantWord (getTenant ch t) (tenantCfg (if older then ch.cfgOld else ch.cfg) t))
  | .lease => flops (leaseWord ch.damson)
  | .sticky i => flops (getSticky ch i).bit.toNat
  | .severity i => flops (severityWord ch i)
  | .rind => flops (rindWord s)

/-- The bits covered, from bit 0 of `shadowCopies`. -/
def shadowWidth : ShadowEntry → Nat
  | .slot _ => 180
  | .lineKey _ => 52
  | .region _ _ _ => 256
  | .unit _ => 32
  | .tenant _ _ => 669
  | .lease => 119
  | .sticky _ => 1
  | .severity _ => 8
  | .rind => 129

/-- The comparator's unit number and the entry index (Table 17.4). A unit's index is its source ID (DESIGN CHOICE, log
entry 166). -/
def shadowUnit : ShadowEntry → Nat × Nat
  | .slot k => (0x10, k.val)
  | .lineKey e => (0x11, e.val)
  | .region g r _ => (0x12 + g.val, r.val)
  | .unit id => (0x1A, id.toNat)
  | .tenant t _ => (0x1B, t.val)
  | .lease => (0x1C, 0)
  | .sticky i => (0x1D, i.val)
  | .severity i => (0x1E, i.val)
  | .rind => (0x1F, 0)

end Sys2Proof.Machine
end

