-- ==== Sys2Proof/Machine/Symbols.lean ====
section
/-! DEFINITION. The symbol code of stored keys (R116, 05_keys.md): what a read of a key cache slot finds, and what becomes of a
slot that cannot be corrected. -/

namespace Sys2Proof.Machine

/-- Stored bytes of a slot or entry that read wrong, each counted once. -/
def badBytes (bad : List (Fin 80)) : Nat := bad.eraseDups.length

/-- The code corrects up to 8 bad bytes (R116). -/
def correctable (bad : List (Fin 80)) : Bool := badBytes bad ≤ 8

/-- A request still has blocks to process under a slot (R116). -/
def needsSlot (q : Req) (k : Nat) : Bool :=
  let done := dataDone q q.buf.length
  let u := reqUnit q
  let ends := (q.uses.foldl (fun (acc : Nat × List (Nat × Nat)) run =>
    let e := acc.1 + (if u = 0 then dataLen q else run.1 * u)
    (e, acc.2 ++ [(run.2.slot, e)])) (0, [])).2
  let lastSlot := match ends.getLast? with | some e => decide (e.1 = k) | none => false
  (ends.any fun e => e.1 = k && done < min e.2 (dataLen q)) || (lastSlot && q.buf.length < clusterIn q) ||
    (match q.newUse with | some n => n.slot = k && dataDone q q.second < dataLen q | none => false)

/-- Requests that need the key of a lost slot end (R349). -/
def endKeyUsers (ch : Chip) (k : Nat) : Chip :=
  let qs := ch.ports.flatMap fun e => (e.2.reqs.filter fun q => !q.dead && needsSlot q k).map fun q => (e.1, q)
  qs.foldl (fun ch pq => endReq ch pq.1 pq.2 stAborted 0x48) ch

/-- A slot's CLEARING will record no retirement. -/
def markSilent (ch : Chip) (k : Nat) : Chip := { ch with keys := { ch.keys with silent := k :: ch.keys.silent } }

/-- A slot is read, at admission, at pin or by the scrubber (R116): bad bytes are corrected and written back, or the slot is
emptied through CLEARING. -/
def scrubSlot (ch : Chip) (k : Nat) (bad : List (Fin 80)) : Chip :=
  let d := slotDesc ch k
  if bad.isEmpty then ch
  else if correctable bad then
    if dState d = ssEmpty then ch else event ch 0x0302 0 (some (dTenant d)) [(k, 20), (badBytes bad, 8), (0, 1)]
  else if dState d = ssActive || dState d = ssRetiring then
    endKeyUsers (event (markSilent (startClearing ch k) k) 0x0303 1 (some (dTenant d)) [(k, 20), (0, 1)]) k
  else ch

end Sys2Proof.Machine
end

