-- ==== Sys2Proof/Machine/StreamPorts.lean ====
section
/-! DEFINITION. The ingress half of the stream ports: framing, credit and timers (R31 to R55, 02_stream_ports.md), and
the admission of messages with the checks of Table 2.9 and the choice of the serving cluster (R84 to R92,
04_scheduling.md; R161 to R171, 07_shards.md; R203 to R207, 09_change.md). -/

namespace Sys2Proof.Machine

def getIng (ch : Chip) (p : Nat) (c : Fin 4) : IngClass := Quad.get (getPort ch p).ing c
def modIng (ch : Chip) (p : Nat) (c : Fin 4) (f : IngClass → IngClass) : Chip :=
  modPort ch p fun pt => { pt with ing := Quad.set pt.ing c (f (Quad.get pt.ing c)) }

/-- The STATUS message of a rejected message (R50), with its own place in the order of messages. -/
def rejectStatus (ch : Chip) (p : Nat) (c : Fin 4) (sb : Sideband) (status detail keyidx kgen : Nat) : Chip :=
  modPort ch p fun pt =>
    { pt with
      nextRid := pt.nextRid + 1
      msgs := pt.msgs ++ [{ rid := pt.nextRid, sb := sb, cls := c, kind := 2, shard := sbShard sb, last := true
                            tail := some (status, detail), keyidx := keyidx, kgen := kgen }] }

/-- Let the STATUS of a request wait for the tail of its message, or leave (R50, R67). -/
def readyStatus (ch : Chip) (p rid : Nat) (go : Bool) : Chip :=
  modPort ch p fun pt =>
    { pt with msgs := pt.msgs.map fun m => if m.rid = rid && m.kind = 2 then { m with ready := go } else m }

/-- A message whose STATUS waited for its tail has ended: the STATUS is due (R50, R67, R483). -/
def rejectDue (ch : Chip) (p : Nat) (c : Fin 4) (next : IngRun) : Chip :=
  match (getIng ch p c).run with
  | .rejected sb st dt k g => modIng (rejectStatus ch p c sb st dt k g) p c fun ic => { ic with run := next, gap := 0 }
  | .ended rid => modIng (readyStatus ch p rid true) p c fun ic => { ic with run := next, gap := 0 }
  | _ => ch

/-! ### Delivery of an admitted message's flits -/

/-- The GCM and GMAC prefix is not valid (R67). -/
def badPrefix (q : Req) (first : List Byte) : Bool :=
  let op := sbOp q.sb
  (op = opDecrypt || op = opVerify) && isGcm (sbMode q.sb) && !((first.drop 12).take 4).all (· = 0)

/-- A flit of an admitted request waits in the ingress queue, with its credit, for the Currant (DECODE and REBUILD) or for the
forward half's input of its cluster (R24, R44, R52). -/
def deliver (ch : Chip) (p : Nat) (q : Req) (data : FlitData) : Chip :=
  let off := 256 * q.arrived
  let bytes := (bvBytes 256 data).take (min 256 (q.payload - off))
  let op := sbOp q.sb
  let ch := modReq ch p q.rid fun q => { q with arrived := q.arrived + 1 }
  if op = opDecode || op = opRebuild then
    modPort ch p fun pt => { pt with cur := { pt.cur with
      fromAdmission := pt.cur.fromAdmission ++
        [{ rid := q.rid, cls := q.cls, fromReturn := false, pos := 0, off := off, bytes := bytes }] } }
  else pushForward ch q.cluster { port := p, rid := q.rid, cls := q.cls, order := q.order, bytes := bytes, queued := true }

/-- One flit of an admitted, open message: the flit count of R51, then the prefix of R67. A flit that goes no further leaves
the ingress queue. -/
def takeFlit (ch : Chip) (p : Nat) (c : Fin 4) (rid : Nat) (data : FlitData) (tail : Bool) : Chip :=
  match findReq (getPort ch p) rid with
  | none => modIng ch p c fun ic => { giveCredit 1 ic with run := if tail then .idle else .discard, gap := 0 }
  | some q =>
    let setRun (ch : Chip) (r : IngRun) : Chip := modIng ch p c fun ic => { ic with run := r, gap := 0 }
    let lastFlit : Bool := decide (q.arrived + 1 = q.flits)
    if tail != lastFlit then
      setRun (endReq (modIng ch p c (giveCredit 1)) p q stLenMismatch 0x40) (if tail then .idle else .discard)
    else if q.arrived = 0 && badPrefix q (bvBytes 256 data) then
      let ch := endReq (modIng ch p c (giveCredit 1)) p q stBadField 0x50
      if tail then setRun ch .idle else setRun (readyStatus ch p rid false) (.ended rid)
    else setRun (deliver ch p q data) (if tail then .idle else .admitted rid)

/-! ### INGRESS_FLIT (R32, R44, R45, R51, R53, R483) -/

/-- Close the message that still waits for admission and is open: it ends as R51 or R53 says once admitted. -/
def closeWaiting (ic : IngClass) (ending : Nat × Nat) : IngClass :=
  match ic.waiting.getLast? with
  | some w => { ic with waiting := ic.waiting.dropLast ++ [{ w with tail := true, ending := some ending }] }
  | none => ic

/-- End whatever is open in a class with the effects of R51; `next` runs afterwards. -/
def endOpen (ch : Chip) (p : Nat) (c : Fin 4) (status detail : Nat) (next : IngRun) : Chip :=
  match (getIng ch p c).run with
  | .waiting => modIng ch p c fun ic => { closeWaiting ic (status, detail) with run := next, gap := 0 }
  | .admitted rid =>
    let ch := match findReq (getPort ch p) rid with
      | some q => endReq ch p q status detail
      | none => ch
    modIng ch p c fun ic => { ic with run := next, gap := 0 }
  | .rejected _ _ _ _ _ => rejectDue ch p c next
  | .ended _ => rejectDue ch p c next
  | .discard => modIng ch p c fun ic => { ic with run := next, gap := 0 }
  | .idle => modIng ch p c fun ic => { ic with run := next, gap := 0 }

/-- A message takes its place among the heads that wait for admission (R49). -/
def queueHead (ch : Chip) (p : Nat) (c : Fin 4) (w : IMsg) (run : IngRun) : Chip :=
  let no := (getPort ch p).nextHead
  modIng (modPort ch p fun pt => { pt with nextHead := no + 1 }) p c fun ic =>
    { ic with waiting := ic.waiting ++ [{ w with no := no }], run := run, gap := 0 }

/-- A head starts a message, which waits for admission (R49). -/
def startMessage (ch : Chip) (p : Nat) (c : Fin 4) (f : IngressFlit) (spacing : Bool) : Chip :=
  queueHead ch p c { sb := f.sb, spacing := spacing, data := [f.data], tail := f.tail } (if f.tail then .idle else .waiting)

/-- An orphan (R32). -/
def orphanFlit (ch : Chip) (p : Nat) (c : Fin 4) : Chip :=
  modPort (modIng ch p c (giveCredit 1)) p fun pt => { pt with orphan := satInc 16 pt.orphan }

/-- A flit with PI_ABORT and PI_TAIL (R53, R483); its data is discarded. A head among them ends a discard and is the message
it ends (DEDUCED, log entry 21); while a message of its class is open, it ends that message and starts none (DEDUCED, log
entry 126). -/
def abortFlit (ch : Chip) (p : Nat) (f : IngressFlit) (spacing : Bool) : Chip :=
  let c := f.cls
  let fresh (ch : Chip) : Chip :=
    queueHead (modIng ch p c (giveCredit 1)) p c
      { sb := f.sb, spacing := spacing, tail := true, ending := some (stAborted, 0x42) } .idle
  match (getIng ch p c).run with
  | .idle => orphanFlit ch p c
  | .discard =>
    if f.head then fresh (modIng ch p c fun ic => { ic with run := .idle })
    else modIng ch p c fun ic => { giveCredit 1 ic with run := .idle }
  | .rejected _ _ _ _ _ =>
    if f.head then fresh (rejectDue ch p c .idle) else rejectDue (modIng ch p c (giveCredit 1)) p c .idle
  | .ended _ =>
    if f.head then fresh (rejectDue ch p c .idle) else rejectDue (modIng ch p c (giveCredit 1)) p c .idle
  | _ => endOpen (modIng ch p c (giveCredit 1)) p c stAborted 0x42 .idle

/-- A flit without PI_HEAD and without PI_ABORT. -/
def bodyFlit (ch : Chip) (p : Nat) (f : IngressFlit) : Chip :=
  let c := f.cls
  match (getIng ch p c).run with
  | .idle => orphanFlit ch p c
  | .waiting =>
    modIng ch p c fun ic =>
      match ic.waiting.getLast? with
      | some w =>
        { ic with waiting := ic.waiting.dropLast ++ [{ w with data := w.data ++ [f.data], tail := f.tail }]
                  run := if f.tail then .idle else .waiting, gap := 0 }
      | none => ic
  | .admitted rid => takeFlit ch p c rid f.data f.tail
  | .rejected _ _ _ _ _ =>
    let ch := modIng ch p c (giveCredit 1)
    if f.tail then rejectDue ch p c .idle else modIng ch p c fun ic => { ic with gap := 0 }
  | .ended _ =>
    let ch := modIng ch p c (giveCredit 1)
    if f.tail then rejectDue ch p c .idle else modIng ch p c fun ic => { ic with gap := 0 }
  | .discard => modIng ch p c fun ic => { giveCredit 1 ic with run := if f.tail then .idle else .discard }

/-- A flit with no credit outstanding (R45): the open message ends with DETAIL 0x44 and the port is fenced in the same
cycle, under R54. -/
def overrunFence (ch : Chip) (p : Nat) (c : Fin 4) : Chip :=
  let victim := match (getIng ch p c).run with | .admitted rid => some rid | _ => none
  let ch := modIng ch p c fun ic =>
    match ic.run with
    | .waiting => (match ic.waiting.getLast? with
      | some w => { ic with waiting := ic.waiting.dropLast ++ [{ w with ending := some (stAborted, 0x44) }] }
      | none => ic)
    | _ => ic
  let ch := modPort ch p fun pt => { pt with overrun := satInc 16 pt.overrun }
  let ch := raise ch (srcPort p) fkPortOverrun (ctxPlain 0)
  changeUnit (fencePort ch p 1 fun rid => if some rid = victim then 0x44 else 0x43) (srcPort p) .fenced 5

/-- A flit on an enabled port. -/
def ingressOn (ch : Chip) (p : Nat) (f : IngressFlit) : Chip :=
  let c := f.cls
  let pt := getPort ch p
  let spacing := f.head && pt.lastIn && f.consec
  let ch := modPort ch p fun pt => { pt with lastIn := f.head }
  if (getIng ch p c).unspent = 0 then overrunFence ch p c
  else
    let ch := modIng ch p c fun ic => { ic with unspent := ic.unspent - 1 }
    if f.abort && !f.tail then orphanFlit ch p c
    else if f.abort then abortFlit ch p f spacing
    else if f.head then startMessage (endOpen ch p c stLenMismatch 0x40 .idle) p c f spacing
    else bodyFlit ch p f

/-- INGRESS_FLIT. A disabled port counts an orphan (R55); a fenced one, or any port under HALT, discards the flit unread
(R54, R355). A flit shows that the ingress clock runs. -/
def execIngressFlit (p : Fin 64) (f : IngressFlit) (s : State) : Out :=
  onChip s fun ch =>
    let ch := modPort ch p fun pt => { pt with piClk := true }
    if halted ch then ch
    else
      match (getPort ch p).st with
      | .disabled => modPort ch p fun pt => { pt with orphan := satInc 16 pt.orphan }
      | .fenced => ch
      | .enabled => ingressOn ch p f

/-! ### The checks of Table 2.9 -/

/-- A queue's word (Table 12.7). -/
def queueWord (t : TenantCfg) (q : Nat) : Nat := bits t.queues.toNat (16 * q) 16

/-- The range that names a slot and resolves keys (R204): one that has started and is not DONE. -/
def rangeOf (ch : Chip) (slot : Nat) : Option (Nat × Range) :=
  ch.ranges.findSome? fun e => match e.2 with
    | some r => if (r.o = slot || r.n = slot) && r.st != .armed && r.st != .done then some (e.1, r) else none
    | none => none

/-- Runs of units by serving slot (R204); none of a run is the window's. -/
def unitRuns (r : Range) (named d n : Nat) : List (Nat × Option Nat) :=
  let e := match r.win with | some w => w.e | none => r.b
  let segs : List (Nat × Option Nat) :=
    [(r.lo, some named), (r.b, some r.n), (max r.b e, none), (r.hi + 1, some r.o), (d + n, some named)]
  (segs.foldl (fun (acc : Nat × List (Nat × Option Nat)) seg =>
    let stop := min seg.1 (d + n)
    if acc.1 < stop then (stop, acc.2 ++ [(stop - acc.1, seg.2)]) else acc) (d, [])).2

/-- How a slot serves a request. -/
def keyUse (ch : Chip) (slot : Nat) : KeyUse :=
  let d := slotDesc ch slot
  { slot := slot, kgen := dKgen d, mode := dMode d, unit := unitBytes (dUsize d), family := dFamily d }

/-- The window that a BRAMBLE_RETURN answers (R207, check 13). -/
def bramblesWindow (ch : Chip) (sb : Sideband) : Option (Nat × Range × Window) :=
  ch.ranges.findSome? fun e => match e.2 with
    | some r => (match r.win with
      | some w =>
        let u := unitBytes (dUsize (slotDesc ch r.o))
        let wbytes := (w.e - r.b) * u
        let len := sbLen sb
        if w.isOpen && !w.returned && r.tenant = sbTenant sb && r.o = sbKeyidx sb && r.ogen = sbKgen sb &&
            r.b = sbDunit sb && wbytes + 16 ≤ len + u && len ≤ wbytes && (len = wbytes || w.e = r.hi + 1) then
          some (e.1, r, w)
        else none
      | none => none)
    | none => none

/-- Check 17 (R171). -/
def codingOk (ch : Chip) (p : Nat) (sb : Sideband) : Bool :=
  let op := sbOp sb
  let prof := sbProfile sb
  let k := profK ch.cfg prof
  let cur := (getPort ch p).cur
  if !profValid ch.cfg prof || currantDown ch p then false
  else if op = opEncode then
    let n := sbLen sb / 4096
    sbShard sb < k && sbShard sb + n ≤ k &&
    match findRow ch p (rowIdOf sb) with
    | some row => row.keyidx = sbKeyidx sb && row.kgen = sbKgen sb &&
        (List.range n).all fun i => !row.claimed.testBit (sbShard sb + i)
    | none => true
  else
    let h := Tbl.get 0 cur.patterns (sbShard sb)
    h.getLsbD 0 && fld h 66 10 = sbTenant sb && fld h 60 6 = prof && sbLen sb = k * 4112 &&
      (op != opRebuild || 1 ≤ fld h 56 4)

/-- Checks 1 to 18 on a head (Table 2.9): the STATUS and DETAIL of the first that fails. -/
def headChecks (ch : Chip) (p : Nat) (c : Fin 4) (w : IMsg) : Option (Nat × Nat) :=
  let sb := w.sb
  let op := sbOp sb
  let mode := sbMode sb
  let t := tenantCfg ch.cfg (sbTenant sb)
  let qw := queueWord t (sbQueue sb)
  if hchk sb.toNat != sbHchk sb then some (stHdrCheck, 0x01)
  else if sb.getLsbD 239 || sbFlags sb / 8 != 0 then some (stBadField, 0x02)
  else if sbClass sb != c.val then some (stBadField, 0x08)
  else if w.spacing then some (stBadField, 0x07)
  else if op = 0 || 8 ≤ op then some (stBadOpcode, 0x03)
  else if mode = 0 || 8 ≤ mode then some (stBadField, 0x04)
  else if !opModeOk op mode then some (stBadField, 0x05)
  else if !flagsOk op mode (sbFlags sb) then some (stBadField, 0x06)
  else if w.atReset || (getTenant ch (sbTenant sb)).st != .enabled then some (stDenied, 0x10)
  else if !qw.testBit 15 || bits qw 8 6 != p then some (stDenied, 0x11)
  else if !qw.testBit c.val || (op = opBramble && c != 3) then some (stDenied, 0x12)
  else if sbNoHold sb && !t.noHold then some (stDenied, 0x13)
  else if op = opBramble && (bramblesWindow ch sb).isNone then some (stDenied, 0x14)
  else if !lengthsOk op mode (sbLen sb) (sbAadlen sb) then some (stBadField, 0x20)
  else if isGcm mode && sbDunit sb != 0 then some (stBadField, 0x21)
  else if !isCoding op && (sbStripe sb != 0 || sbShard sb != 0 || sbProfile sb != 0) then some (stBadField, 0x22)
  else if isCoding op && !codingOk ch p sb then some (stBadField, 0x23)
  else if op = opRebuild && (sbKeyidx sb != 0 || sbKgen sb != 0) then some (stBadField, 0x24)
  else none

/-- Checks 19 to 22 on the slot that the header names. -/
def slotChecks (ch : Chip) (sb : Sideband) : Option (Nat × Nat) :=
  let t := tenantCfg ch.cfg (sbTenant sb)
  let k := sbKeyidx sb
  let d := slotDesc ch k
  if !(t.slotBase ≤ k && k < t.slotBase + t.slotSize) || (dState d != ssEmpty && dTenant d != sbTenant sb) then
    some (stKeyOwner, 0x30)
  else if dState d = ssEmpty || dState d = ssLoading then some (stKeyEmpty, 0x31)
  else if dKgen d != sbKgen sb then some (stKeyStale, 0x32)
  else if dState d = ssRetiring || dState d = ssClearing then some (stKeyRetiring, 0x33)
  else none

/-- Data bytes that a header asks for: LEN, or k × 4,096 of a DECODE. -/
def headLen (ch : Chip) (sb : Sideband) : Nat :=
  if sbOp sb = opDecode then profK ch.cfg (sbProfile sb) * 4096 else sbLen sb

/-- What serves the units of a request (R204): none while a unit lies in a window. -/
def resolveUses (ch : Chip) (sb : Sideband) : Option (List (Nat × KeyUse)) :=
  let named := sbKeyidx sb
  let u := unitBytes (dUsize (slotDesc ch named))
  let n := unitCount (headLen ch sb) u
  if sbOp sb = opBramble then some [(n, keyUse ch named)]
  else
    match rangeOf ch named with
    | some (_, r) =>
      let runs := unitRuns r named (sbDunit sb) n
      if runs.any (·.2.isNone) then none
      else some (runs.map fun x => (x.1, keyUse ch (x.2.getD named)))
    | none => some [(n, keyUse ch named)]

/-- Check 23 on the slots used, and R146: a GCM or GMAC ENCRYPT that finds both sub-lease registers empty while no lease
can be reserved. -/
def policyOk (ch : Chip) (sb : Sideband) (uses : List (Nat × KeyUse)) (new : Option KeyUse) (cl : Nat) : Bool :=
  let allows (k bit : Nat) : Bool := let d := slotDesc ch k; dMode d = sbMode sb && (dOps d).testBit bit
  let x := getCluster ch cl
  (uses.all fun x => allows x.2.slot (opsBit (sbOp sb))) &&
  (match new with | some n => allows n.slot 4 | none => true) &&
  !(drawsIv (sbOp sb) (sbMode sb) && (ch.damson.blocked || ch.damson.exhausted) && x.cur.isNone && x.nxt.isNone)

/-- Check 24. -/
def unitsOk (sb : Sideband) (uses : List (Nat × KeyUse)) : Bool :=
  uses.all fun x =>
    let u := x.2.unit
    let last := if u = 0 then sbLen sb else sbLen sb % u
    (!isXts (sbMode sb) || isCoding (sbOp sb) || last = 0 || 16 ≤ last) &&
      (!(sbOp sb = opEncode || sbOp sb = opDecode) || u = 4096)

/-- Check 25 (R456). -/
def groupOk (ch : Chip) (sb : Sideband) (uses : List (Nat × KeyUse)) : Bool :=
  sbOp sb != opEncrypt || (ch.fw.group = 2 && ch.fw.matchBits % 4 = 3) ||
    uses.all fun x => !dGroup (slotDesc ch x.2.slot)

/-! ### The serving cluster (R86) -/

/-- Issue cycles that a flit owes. -/
def flitCycles (ch : Chip) (c : Nat) : Nat := ceilDiv 16 (max 1 (activeStream ch c))

/-- Flits of an admitted request that have not reached the crossbar: those of a DECODE come from the Currant (R24). -/
def flitsComing (q : Req) : Nat :=
  if sbOp q.sb = opDecode then ceilDiv (clusterIn q - q.staged) 256 else q.flits - q.arrived

/-- Issue cycles owed to flits admitted to a cluster and not yet issued, a retry's unissued blocks among them. Second passes, which
only use cycles that nothing else needs (R100), are not counted (DESIGN CHOICE, log entry 153). -/
def backlog (ch : Chip) (c : Nat) : Nat :=
  let coming := ch.ports.foldl (fun n e => n + e.2.reqs.foldl (fun m q =>
    if q.cluster = c && !q.dead && sbOp q.sb != opRebuild then m + flitsComing q else m) 0) 0
  let x := getCluster ch c
  let here := x.fwdIn ++ x.staging ++ x.stuck ++ ((x.retry.map (·.flit)).filter (·.done < 16))
  (coming + (here.filter (!·.second)).length) * flitCycles ch c

/-- The cluster that serves a message of a port (R86). -/
def chooseCluster (ch : Chip) (p : Nat) (c : Fin 4) (sb : Sideband) : Nat :=
  let cand := (candidate ch ch.cfg p).getD (homeOf ch.cfg p)
  if c = 0 || sbLookahead sb || backlog ch cand ≤ spillLevel ch.cfg then cand
  else
    ((List.range 64).filter fun k => !clusterDown ch k).foldl
      (fun best k => if backlog ch k < backlog ch best then k else best)
      (((List.range 64).find? fun k => !clusterDown ch k).getD cand)

/-! ### Reservations (R22, R49, R101, R162) -/

/-- Hold bytes reserved over all ports, and the buffer's size (Table 1.3). -/
def holdUsed (ch : Chip) : Nat := ch.ports.foldl (fun n e => n + e.2.reqs.foldl (fun m q => m + q.holdRes) 0) 0
def holdSize : Nat := 64 * 2 ^ 20

/-- Whether a message is held (R74, R80), and the bytes its reservation takes in whole flits. -/
def heldMsg (ch : Chip) (sb : Sideband) : Bool :=
  let op := sbOp sb
  let out := headLen ch sb
  if op = opBramble then isTagged (sbMode sb)
  else
    (op = opDecrypt || op = opDecode) && hasVerdict op (sbMode sb) &&
      (out = 0 || !(sbNoHold sb || (tenantCfg ch.cfg (sbTenant sb)).holdLimit * 256 < out))

def holdNeed (ch : Chip) (sb : Sideband) : Nat := if heldMsg ch sb then ceilDiv (sbLen sb) 256 * 256 else 0

/-- Accumulator buffers in use in a Currant, of one tenant or of all (R162). -/
def bufsUsed (ch : Chip) (p : Nat) (t : Option Nat) : Nat :=
  let pt := getPort ch p
  let is (x : Nat) : Bool := match t with | some t => x = t | none => true
  pt.cur.rows.foldl (fun n r => if is r.id.tenant.val then n + r.parityLeft else n) 0 +
    pt.reqs.foldl (fun n q => if is (sbTenant q.sb) then n + q.bufs else n) 0

/-- Accumulator buffers that a coding message reserves (R162, R168, R170). -/
def bufsNeed (ch : Chip) (p : Nat) (sb : Sideband) : Nat :=
  let op := sbOp sb
  let prof := sbProfile sb
  let erased := fld (Tbl.get 0 (getPort ch p).cur.patterns (sbShard sb)) 96 32
  if op = opEncode then (if (findRow ch p (rowIdOf sb)).isSome then 0 else profM ch.cfg prof)
  else if op = opDecode then (maskPositions (profK ch.cfg prof) erased).length
  else if op = opRebuild then (maskPositions 32 erased).length
  else 0

/-- A completion record and an egress flit of the class can be reserved, as every message needs that leaves the ingress
queue (R49, R101). The records of a fence keep theirs until they are reported (R54). -/
def recordFree (pt : Port) (c : Fin 4) : Bool :=
  pt.reqs.length + (pt.recs.filter (·.admitted)).length < 4096 && egressFree pt c

/-- Every further reservation of an admission can be made, and an IV can be drawn (R49, R101). A parity message's egress head
slot is that of its accumulator buffer (R162). -/
def reservable (ch : Chip) (p : Nat) (sb : Sideband) (cl : Nat) : Bool :=
  let need := bufsNeed ch p sb
  let x := getCluster ch cl
  holdUsed ch + holdNeed ch sb ≤ holdSize &&
  (need = 0 || (bufsUsed ch p none + need ≤ 127 &&
    bufsUsed ch p (some (sbTenant sb)) + need ≤ (tenantCfg ch.cfg (sbTenant sb)).accQuota)) &&
  (!drawsIv (sbOp sb) (sbMode sb) || x.cur.isSome || x.nxt.isSome)

/-! ### Verdict of admission on a head -/

/-- What happens to a waiting head. -/
inductive Judged where
  /-- Admission waits (R49). -/
  | wait
  /-- Rejected: STATUS, DETAIL, and whether the tail names the slot (R42). -/
  | reject (status detail : Nat) (named : Bool)
  /-- Admitted, with its slots and its cluster. -/
  | enter (uses : List (Nat × KeyUse)) (new : Option KeyUse) (job : Option (Nat × Nat)) (cl : Nat)
deriving DecidableEq, Repr

/-- Judge a waiting head by Table 2.9 and R49. -/
def judgeHead (ch : Chip) (p : Nat) (c : Fin 4) (w : IMsg) : Judged :=
  let sb := w.sb
  let pt := getPort ch p
  if (c = 0 && pt.tokens < 256) || !recordFree pt c then .wait
  else
    match headChecks ch p c w with
    | some (st, dt) => .reject st dt false
    | none =>
      let cl := chooseCluster ch p c sb
      if sbOp sb = opRebuild then (if reservable ch p sb cl then .enter [] none none cl else .wait)
      else
        match slotChecks ch sb with
        | some (st, dt) => .reject st dt true
        | none =>
          let win := if sbOp sb = opBramble then bramblesWindow ch sb else none
          let new := win.map fun x => keyUse ch x.2.1.n
          match resolveUses ch sb with
          | none => .wait
          | some uses =>
            if !policyOk ch sb uses new cl then .reject stDenied 0x34 true
            else if !unitsOk sb uses then .reject stBadField 0x35 true
            else if !groupOk ch sb uses then .reject stGroupMismatch 0x36 true
            else if reservable ch p sb cl then .enter uses new (win.map fun x => (x.1, x.2.2.fseq)) cl
            else .wait

/-! ### Effects of an admission -/

/-- Draw the next counter value of a cluster (R136, R142): the IV and the registers after it. -/
def drawIv (cl : Cluster) : BitVec 96 × Cluster :=
  let take (l : SubLease) : BitVec 96 × Option SubLease :=
    (BitVec.ofNat 96 (field 84 12 l.slot ||| field 40 44 l.lease ||| field 24 16 l.sub ||| field 0 24 l.off),
     if l.off + 1 < 2 ^ 24 then some { l with off := l.off + 1 } else none)
  match cl.cur, cl.nxt with
  | some l, nxt =>
    (match (take l).2 with
    | some l' => ((take l).1, { cl with cur := some l' })
    | none => ((take l).1, { cl with cur := nxt, nxt := none }))
  | none, some l => ((take l).1, { cl with cur := (take l).2, nxt := none })
  | none, none => (0, cl)

/-- Replace entries until a key of `size` entries fits (R123): the least recently used that is neither locked nor spared,
else the least recently used that is not locked. -/
def makeRoom (locked spared : KeyFileEntry → Bool) : Nat → List KeyFileEntry → Nat → List KeyFileEntry
  | 0, f, _ => f
  | n + 1, f, size =>
    if f.foldl (fun a e => a + e.size) 0 + size ≤ 256 then f
    else
      match (takeFirst (fun e => !locked e && !spared e) f.reverse).orElse fun _ => takeFirst (fun e => !locked e) f.reverse with
      | some (_, rest) => makeRoom locked spared n rest.reverse size
      | none => f

/-- Slots whose keys blocks of a cluster are between C5 and C6 under: those of flits under way and of failed blocks (R123). -/
def lockedSlots (ch : Chip) (cl : Nat) : List Nat :=
  let x := getCluster ch cl
  ((x.staging.filter fun f => 0 < f.done) ++ x.stuck ++ x.retry.map (·.flit)).flatMap fun f =>
    match findReq (getPort ch f.port) f.rid with
    | some q => reqSlots q
    | none => []

/-- The key of a slot comes into the serving cluster's key file, or moves to its front (R123, R124). A slot that leaves the
key file takes its kept tweaks with it (R71). -/
def fetchKey (hint : Bool) (cl : Nat) (ch : Chip) (slot : Nat) : Chip :=
  let d := slotDesc ch slot
  let x := getCluster ch cl
  match takeFirst (fun e : KeyFileEntry => e.slot = slot && e.kgen = dKgen d) x.keyFile with
  | some (e, rest) => setCluster ch cl { x with keyFile := { e with hint := hint } :: rest }
  | none =>
    let key := slotKey ch slot
    let ks := keySet (dMode d) key (dFamily d)
    let size := if isTagged (dMode d) then 2 else 1
    let e : KeyFileEntry :=
      { slot := slot, kgen := dKgen d, key := key, tagMat := (ks.h, ks.ke), size := size, hint := hint }
    let locked := lockedSlots ch cl
    let file := e :: makeRoom (fun e => locked.contains e.slot) (fun e => e.hint || dPinned (slotDesc ch e.slot)) 256
      x.keyFile size
    setCluster ch cl { x with keyFile := file, tweaks := x.tweaks.filter fun t => file.any (·.slot = t.slot) }

/-- The kept tweak of a tenant queue is used or discarded by the next message of the queue (R71). -/
def takeTweak (ch : Chip) (t q : Nat) : Chip :=
  { ch with clusters := Tbl.mapVals {} (fun _ cl =>
      { cl with tweaks := cl.tweaks.filter fun k => !(k.tenant = t && k.queue = q) }) ch.clusters }

/-- Claim an ENCODE's positions in its row, which is opened if need be (R161, R162): the request, which notes its row and
whether it closes it. -/
def claimRow (ch : Chip) (p : Nat) (q : Req) : Req × Chip :=
  let id := rowIdOf q.sb
  let n := sbLen q.sb / 4096
  let mine := positionsMask ((List.range n).map (sbShard q.sb + ·))
  let fresh : Row :=
    { no := (getPort ch p).cur.nextRow, id := id, keyidx := sbKeyidx q.sb, kgen := sbKgen q.sb, epoch := q.epoch, ck := q.ck, cm := q.cm, claimed := 0,
      passed := 0, accs := List.replicate q.cm (zeros 4112), closer := none, lastAt := ch.cycle, parityLeft := q.cm }
  let found := findRow ch p id
  let row := found.getD fresh
  let claimed := row.claimed ||| mine
  let closing := claimed = 2 ^ row.ck - 1
  let row' := { row with claimed := claimed, closer := if closing then some q.rid else row.closer, lastAt := ch.cycle }
  ({ q with closing := closing, row := some row.no }, modPort ch p fun pt =>
    { pt with cur := { pt.cur with
        rows := pt.cur.rows.filter (·.no != row.no) ++ [row']
        nextRow := if found.isSome then pt.cur.nextRow else pt.cur.nextRow + 1 } })

/-- A message of a request with its header. -/
def reqMsg (q : Req) (kind shard outlen : Nat) : EMsg :=
  { statusMsg q 0 0 with kind := kind, shard := shard, outlen := outlen, last := false, tail := none, ends := false }

/-- Mark the last of a list of messages with LAST; the request ends with it. -/
def markLast (ms : List EMsg) : List EMsg :=
  match ms.getLast? with
  | some m => ms.dropLast ++ [{ m with last := true, ends := true }]
  | none => []

/-- The egress messages that an admitted request will drive (R35, R75, R76, R163, R170). The DATA message of a DECODE, which has
no one position, echoes SHARD (DESIGN CHOICE, log entry 155). -/
def plannedMsgs (q : Req) : List EMsg :=
  let op := sbOp q.sb
  if op = opVerify || (op = opBramble && q.held) then []
  else if op = opEncode then
    let data := (List.range (sbLen q.sb / 4096)).map fun i => reqMsg q 0 (sbShard q.sb + i) 4112
    let par := if q.closing then (List.range q.cm).map fun i => { reqMsg q 1 (q.ck + i) 4112 with ready := false } else []
    markLast (data ++ par)
  else if op = opRebuild then
    markLast ((maskPositions (q.ck + q.cm) q.erased).map fun pos =>
      { reqMsg q (if pos < q.ck then 0 else 1) pos 4112 with ready := false })
  else if op = opBramble then markLast [reqMsg q 4 0 (outLen q)]
  else if q.held then markLast [{ reqMsg q 0 (sbShard q.sb) (outLen q) with ready := false, heldFlag := true }]
  else if hasVerdict op (sbMode q.sb) then [{ reqMsg q 0 (sbShard q.sb) (outLen q) with hold := true }]
  else markLast [reqMsg q 0 (sbShard q.sb) (outLen q)]

/-- The context entry that a request takes: the lowest free one (DESIGN CHOICE, log entry 169). -/
def freeCtx (pt : Port) : Nat := ((List.range 4096).find? fun i => !pt.reqs.any (·.ctx = i)).getD 0

/-- Admit a message: its context entry, its reservations, its IV, its slots' in-flight counts, its place in a row or a
window, and its messages (R49, R101, R117, R142, R161, R207). -/
def admitMsg (ch : Chip) (p : Nat) (c : Fin 4) (w : IMsg) (uses : List (Nat × KeyUse)) (new : Option KeyUse)
    (job : Option (Nat × Nat)) (cl : Nat) : Nat × Chip :=
  let sb := w.sb
  let pt := getPort ch p
  let coding := isCoding (sbOp sb)
  let pat := Tbl.get 0 pt.cur.patterns (sbShard sb)
  let unit := match uses with | (_, u) :: _ => u.unit | [] => 0
  let payload := payloadLen (sbOp sb) (sbMode sb) (sbLen sb) (sbAadlen sb) unit
  let draws := drawsIv (sbOp sb) (sbMode sb)
  let iv := if draws then (drawIv (getCluster ch cl)).1 else 0
  let ch := if draws then setCluster ch cl (drawIv (getCluster ch cl)).2 else ch
  let q : Req :=
    { rid := pt.nextRid, order := ch.admissions, ctx := freeCtx pt, sb := sb, cls := c, gen := ch.admitGen
      epoch := (getTenant ch (sbTenant sb)).epoch, flits := flitCount payload, payload := payload, cluster := cl
      uses := uses, newUse := new, job := job.map (·.1), jobSeq := (job.map (·.2)).getD 0, iv := iv
      held := heldMsg ch sb, holdRes := holdNeed ch sb
      ck := if coding then profK ch.cfg (sbProfile sb) else 0, cm := if coding then profM ch.cfg (sbProfile sb) else 0
      erased := if coding && sbOp sb != opEncode then fld pat 96 32 else 0
      bufs := if sbOp sb = opEncode then 0 else bufsNeed ch p sb
      accs := if coding && sbOp sb != opEncode then List.replicate (bufsNeed ch p sb) (zeros 4112) else [] }
  let claim := if sbOp sb = opEncode then claimRow ch p q else (q, ch)
  let q := claim.1
  let ch := { claim.2 with admissions := ch.admissions + 1 }
  let ch := (reqSlots q).foldl (fun ch k => setInflight ch k (inflightOf ch k + 1)) ch
  let ch := (reqSlots q).foldl (fetchKey (sbPinHint sb) cl) (takeTweak ch (sbTenant sb) (sbQueue sb))
  let ch := match job with
    | some (j, _) => (match getRange ch j with
      | some r => setRange ch j (some { r with win := r.win.map fun v => { v with returned := true } })
      | none => ch)
    | none => ch
  let ch := modPort ch p fun pt =>
    { pt with nextRid := pt.nextRid + 1, reqs := pt.reqs ++ [q], msgs := pt.msgs ++ plannedMsgs q
              tokens := if c = 0 then pt.tokens - 256 * q.flits else pt.tokens }
  (q.rid, ch)

/-- The flits of an admitted message that arrived before its admission; those after an ending leave the ingress queue (R44). -/
def drainFlits (ch : Chip) (p : Nat) (c : Fin 4) (rid : Nat) (w : IMsg) : Chip :=
  let n := w.data.length
  let complete := w.tail && w.ending.isNone
  w.data.zipIdx.foldl (fun ch d =>
    match findReq (getPort ch p) rid with
    | some q => if q.dead then modIng ch p c (giveCredit 1) else takeFlit ch p c rid d.1 (complete && d.2 + 1 = n)
    | none => modIng ch p c (giveCredit 1)) ch

/-! ### ADMISSION -/

/-- A descriptor that checks 19 to 25 read of a waiting head disagrees with its inverted copy, so that its value is not used
(R392): the head waits. -/
def headClash (ch : Chip) (p : Nat) (c : Fin 4) (w : IMsg) : Option (Nat × Nat) :=
  if (headChecks ch p c w).isSome || sbOp w.sb = opRebuild then none
  else (slotClash ch (sbKeyidx w.sb)).orElse fun _ => ((resolveUses ch w.sb).getD []).findSome? fun u => slotClash ch u.2.slot

/-- What becomes of a waiting head in a step (R49, R392). -/
def headVerdict (ch : Chip) (p : Nat) (c : Fin 4) (w : IMsg) : Judged :=
  if (headClash ch p c w).isSome then .wait else judgeHead ch p c w

/-- The disagreements that admission finds in a class are reported (R392). -/
def raiseClashes (ch : Chip) (p : Nat) (c : Fin 4) : Chip :=
  ((getIng ch p c).waiting.filterMap (headClash ch p c)).foldl raiseShadow ch

/-- An earlier head of the same tenant queue, in any class, waits: the queue's admission waits with it (R22, R49). -/
def queueWaits (ch : Chip) (p : Nat) (w : IMsg) : Bool :=
  [(0 : Fin 4), 1, 2, 3].any fun c => (getIng ch p c).waiting.any fun v =>
    v.no < w.no && sbTenant v.sb = sbTenant w.sb && sbQueue v.sb = sbQueue w.sb &&
      decide (headVerdict ch p c v = .wait)

/-- The message at place `i` leaves the waiting heads. -/
def leaveHeads (i : Nat) (ic : IngClass) : IngClass := { ic with waiting := ic.waiting.eraseIdx i }

/-- A message that is not admitted leaves the ingress queue: the credits of its flits return (R44). -/
def leaveQueue (i : Nat) (w : IMsg) (ic : IngClass) : IngClass := giveCredit w.data.length (leaveHeads i ic)

/-- The stored bytes of a slot that read wrong in this step. -/
def slotBad (bad : List (Fin 1048576 × Fin 80)) (k : Nat) : List (Fin 80) := (bad.filter fun x => x.1.val = k).map (·.2)

/-- The slots that an admission would name. -/
def enterSlots (uses : List (Nat × KeyUse)) (new : Option KeyUse) : List Nat :=
  ((uses.map (·.2.slot)) ++ (new.toList.map (·.slot))).eraseDups

/-- The slots of a message that nothing else keeps out are read; it is rejected when one is lost (R116; DEDUCED, log entry 147). -/
def readSlots (ch : Chip) (bad : List (Fin 1048576 × Fin 80)) (j : Judged) : Chip × Judged :=
  match j with
  | .enter uses new _ _ =>
    let ks := enterSlots uses new
    (ks.foldl (fun ch k => scrubSlot ch k (slotBad bad k)) ch,
      if ks.all fun k => correctable (slotBad bad k) then j else .reject stKeyStale 0x32 true)
  | j => (ch, j)

/-- The oldest waiting head of the pool that nothing makes wait (R49) is admitted or rejected. -/
def admitOne (ch : Chip) (p : Nat) (c : Fin 4) (bad : List (Fin 1048576 × Fin 80)) : Chip :=
  let ic := getIng ch p c
  let judge (w : IMsg × Nat) : Option (IMsg × Nat × Judged) :=
    match headVerdict ch p c w.1 with
    | .wait => none
    | j => if queueWaits ch p w.1 then none else some (w.1, w.2, j)
  match ic.waiting.zipIdx.findSome? judge with
  | none => ch
  | some (w, i, j) =>
    let isOpen := ic.run = .waiting && i + 1 = ic.waiting.length
    let rd := readSlots (modIng ch p c (leaveHeads i)) bad j
    let ch := rd.1
    match rd.2 with
    | .wait => ch
    | .reject st dt named =>
      let ch := modIng ch p c (giveCredit w.data.length)
      let kg := if named then sbNamed w.sb else (0, 0)
      if isOpen then modIng ch p c fun ic => { ic with run := .rejected w.sb st dt kg.1 kg.2 }
      else rejectStatus ch p c w.sb st dt kg.1 kg.2
    | .enter uses new job cl =>
      let run := (getIng ch p c).run
      let gap := (getIng ch p c).gap
      let a := admitMsg ch p c w uses new job cl
      let ch := drainFlits a.2 p c a.1 w
      -- A message that is still open keeps its timer; a later message of the class keeps what it runs.
      let ch := modIng ch p c fun ic =>
        if isOpen then
          { ic with gap := gap, run := if ic.run = .discard || ic.run = .ended a.1 then ic.run else .admitted a.1 }
        else { ic with run := run, gap := gap }
      let ch := if isOpen then ch else readyStatus ch p a.1 true
      match w.ending, findReq (getPort ch p) a.1 with
      | some (st, dt), some q => endReq ch p q st dt
      | _, _ => ch

/-- ADMISSION. -/
def execAdmission (p : Fin 64) (c : Fin 4) (bad : List (Fin 1048576 × Fin 80)) (s : State) : Out :=
  onChip s fun ch => if halted ch || (getPort ch p).st != .enabled then ch else admitOne (raiseClashes ch p c) p c bad

/-! ### FLIT_GAP_TIMEOUT (R52) -/

/-- The timer of a class has reached FLIT_GAP, in steps of 0.25 µs. -/
def gapReached (ch : Chip) (ic : IngClass) : Bool := ch.flitGap * usCycles ch ≤ 4 * ic.gap

/-- The open message that still waits for admission is reported without admission and takes no token (R52). -/
def waitTimeout (ch : Chip) (p : Nat) (c : Fin 4) : Chip :=
  let ic := getIng ch p c
  match ic.waiting.getLast? with
  | some w =>
    let ch := modIng ch p c fun ic =>
      { leaveQueue (ic.waiting.length - 1) w ic with run := .discard, gap := 0 }
    rejectStatus ch p c w.sb stTimeout 0x41 (sbNamed w.sb).1 (sbNamed w.sb).2
  | none => ch

/-- FLIT_GAP_TIMEOUT, due when the timer of the open message has reached its limit. -/
def execFlitGapTimeout (p : Fin 64) (c : Fin 4) (s : State) : Out :=
  onChip s fun ch =>
    let ic := getIng ch p c
    if halted ch || (getPort ch p).st != .enabled || !gapReached ch ic then ch
    else
      match ic.run with
      | .waiting => waitTimeout ch p c
      | .admitted _ => endOpen ch p c stTimeout 0x41 .discard
      | .rejected _ _ _ _ _ => rejectDue ch p c .discard
      | .ended _ => rejectDue ch p c .discard
      | .idle => ch
      | .discard => ch

end Sys2Proof.Machine
end

