-- ==== Sys2Proof/Machine/Clusters.lean ====
section
/-! DEFINITION. The clusters and the Currants at work: the issue stage (R89 to R91, R100, 04_scheduling.md), checked
computation and its retries (R361 to R366, 16_degraded.md), the coder (R163 to R170, 07_shards.md), and the verdict
(R72 to R80, 03_transforms.md). -/

namespace Sys2Proof.Machine

/-! ### Output of a request -/

/-- Cut an ENCODE's output from byte `off` on into flits of its coding units (R163). -/
def codingFlits : Nat → OutFlit → Nat → Nat → List Byte → List OutFlit
  | 0, _, _, _, _ => []
  | n + 1, o, shard, off, bs =>
    if bs.isEmpty then []
    else
      let inUnit := off % 4112
      let len := min (256 - inUnit % 256) (min (4112 - inUnit) bs.length)
      { o with coding := some (shard + off / 4112, inUnit), bytes := bs.take len } ::
        codingFlits n o shard (off + len) (bs.drop len)

/-- Mark the last of a list of outputs. -/
def markFin (fs : List OutFlit) : List OutFlit :=
  match fs.getLast? with
  | some f => fs.dropLast ++ [{ f with fin := true }]
  | none => []

/-- The part of an output that fills flits: flits of 256 bytes, or those of the coding units of an ENCODE (R34, R163). -/
def wholeFlits (op det : Nat) : Nat :=
  if op = opEncode then det / 4112 * 4112 + det % 4112 / 256 * 256 else det / 256 * 256

/-- The flits that a request's input now fills, and its last, go to the cluster's input of the return half (R24, R88). VERIFY has
none (R79). -/
def sendOutput (ch : Chip) (p : Nat) (q : Req) : Chip :=
  let op := sbOp q.sb
  let n := if op = opBramble then q.second else q.buf.length
  let det := if n = clusterIn q then outDet q n else wholeFlits op (outDet q n)
  let input := q.buf ++ zeros (clusterIn q - q.buf.length)
  let fresh := ((reqOutput ch q input).take det).drop q.out
  let ch := modReq ch p q.rid fun q => { q with out := det }
  let o : OutFlit := { port := p, rid := q.rid, cls := q.cls, bytes := [] }
  let fs :=
    if op = opVerify then []
    else if op = opEncode then codingFlits (fresh.length + 1) o (sbShard q.sb) q.out fresh
    else (chunks 256 fresh).map fun b => { o with bytes := b }
  let fs := if n = clusterIn q then markFin fs else fs
  modCluster ch q.cluster fun x => { x with retIn := x.retIn ++ fs }

/-- The predicted tweak of a LOOKAHEAD message, started as its head flit issues (R71). Where a live range serves the message
under two slots, it is encrypted under K2 of the first unit's slot (DESIGN CHOICE, log entry 128). -/
def keepTweak (ch : Chip) (p : Nat) (q : Req) : Chip :=
  let later := (getPort ch p).reqs.any fun r =>
    q.rid < r.rid && sbTenant r.sb = sbTenant q.sb && sbQueue r.sb = sbQueue q.sb
  if !sbLookahead q.sb || later then ch
  else
    let use := useAt q.uses 0
    let dunit := sbDunit q.sb + (reqLens q).length
    let t : KeptTweak :=
      { tenant := sbTenant q.sb, queue := sbQueue q.sb, slot := use.slot, kgen := use.kgen, dunit := dunit
        epoch := q.epoch, tweak := aesEnc (useKeySet ch q.cluster use).k2 (duBytes dunit)
        readyAt := ch.cycle + 1 + roundsOf use.mode + 1 }
    modCluster ch q.cluster fun cl => { cl with tweaks := cl.tweaks ++ [t] }

/-- All blocks of a flit have passed their checks: its bytes have been transformed. -/
def flitDone (ch : Chip) (f : StagedFlit) : Chip :=
  match findReq (getPort ch f.port) f.rid with
  | none => ch
  | some q =>
    if q.dead then ch
    else if f.second then
      let q := { q with second := q.second + f.bytes.length }
      sendOutput (modReq ch f.port f.rid fun _ => q) f.port q
    else
      let ch := if q.buf.isEmpty then keepTweak ch f.port q else ch
      let q := { q with buf := q.buf ++ f.bytes }
      let whole := decide (q.buf.length = clusterIn q)
      let q := if whole && hasVerdict (sbOp q.sb) (sbMode q.sb) then
          { q with verdict := .computed (judge ch q q.buf) } else q
      let ch := modReq ch f.port f.rid fun _ => q
      if sbOp q.sb = opBramble then
        modCluster ch q.cluster fun cl => { cl with staging := cl.staging ++ [{ f with done := 0, second := true }] }
      else sendOutput ch f.port q

/-! ### FLIT_ISSUE (R89 to R91, R93, R100) -/

/-- An earlier flit of the same message and pass waits for its retry, or is held for the cluster's reset: flits of a message keep
their order (R13, R362). -/
def behindRetry (x : Cluster) (f : StagedFlit) : Bool :=
  (x.stuck ++ x.retry.map (·.flit)).any fun g => g.port = f.port && g.rid = f.rid && g.second = f.second

/-- A staged flit may issue: its message keeps its order. The room for its output was secured as it entered (`mayEnter`). -/
def canIssue (x : Cluster) (f : StagedFlit) : Bool := !behindRetry x f

/-- The weight of a class (Table 4.2). -/
def weightOf (cfg : Cfg) (c : Fin 4) : Nat := clWeight cfg c

/-- The class after `c` in the round of classes 1 to 3. -/
def nextClass (c : Fin 4) : Fin 4 := if c = 1 then 2 else if c = 2 then 3 else 1

/-- Deficit round robin among classes 1 to 3 (R89): the class that issues next, with the deficits after it. After power-on the turn
stands at class 1 with no deficit, so that class 2 receives the first quantum (DESIGN CHOICE, log entry 154). -/
def drrPick (cfg : Cfg) (ready : Fin 4 → Bool) : Nat → Fin 4 → Quad Nat → Option (Fin 4 × Quad Nat)
  | 0, _, _ => none
  | n + 1, turn, def_ =>
    if ready turn && 0 < Quad.get def_ turn then some (turn, Quad.set def_ turn (Quad.get def_ turn - 1))
    else
      let def_ := if ready turn then def_ else Quad.set def_ turn 0
      let t := nextClass turn
      drrPick cfg ready n t (if ready t then Quad.set def_ t (Quad.get def_ t + weightOf cfg t) else Quad.set def_ t 0)

/-- Active slices of a cluster, in index order. -/
def activeSlices (ch : Chip) (c : Nat) : List Nat :=
  (List.range 17).filter fun s => unitEff (getUnit ch (srcSlice c s)) = .active

/-- The flit whose message was admitted first (R89 step 1). -/
def firstAdmitted (fs : List (StagedFlit × Nat)) : Option (StagedFlit × Nat) :=
  fs.foldl (fun best f => match best with
    | some b => if f.1.order < b.1.order then some f else some b
    | none => some f) none

/-- A forced known-answer test is due in an active slice of a cluster: 9 ms have passed since its last (R368). -/
def katDue (ch : Chip) (cl : Nat) : Bool :=
  (activeSlices ch cl).any fun s => (getUnit ch (srcSlice cl s)).katAt + 9000 * usCycles ch ≤ ch.cycle

/-- The place in staging of the flit that issues, with the round robin after it (R89, R91, R100): class-0 work; else, unless
a forced test takes the cycle (R368), a lower class, in whose turn the flit staged first starts (DESIGN CHOICE, log entry
127); else a second pass. The parameters are those of the admit generation (DESIGN CHOICE, log entry 156). -/
def pickFlit (ch : Chip) (cl : Nat) : Option (Nat × Fin 4 × Quad Nat) :=
  let x := getCluster ch cl
  let all := x.staging.zipIdx.filter fun f => canIssue x f.1
  let first := all.filter fun f => !f.1.second
  let zero := first.filter fun f => f.1.cls = 0
  let lower := first.filter fun f => f.1.cls != 0
  let keep (i : Nat) := some (i, x.turn, x.deficit)
  let under (fs : List (StagedFlit × Nat)) : Option (StagedFlit × Nat) := fs.find? fun f => 0 < f.1.done
  match (under zero).orElse fun _ => firstAdmitted zero with
  | some (_, i) => keep i
  | none =>
    if katDue ch cl then none
    else match under lower with
    | some (_, i) => keep i
    | none =>
      match drrPick ch.cfg (fun c => lower.any fun f => f.1.cls = c) 8 x.turn x.deficit with
      | some (c, d) => (match lower.find? fun f => f.1.cls = c with
        | some (_, i) => some (i, c, d)
        | none => none)
      | none =>
        let recent := x.secondAt.filter fun t => ch.cycle < t + 256
        let seconds := all.filter fun f => f.1.second
        if recent.length < brambleMax ch.cfg then
          (match (under seconds).orElse fun _ => seconds.head? with
          | some (_, i) => keep i
          | none => none)
        else none

/-- The slice that serves a lane when the assignment has been rotated `turn` times (R69, R362). -/
def servingSlice (ch : Chip) (cl turn : Nat) (lane : Fin 16) : Nat :=
  let act := activeSlices ch cl
  act.getD ((lane.val + turn) % max 1 act.length) 0

/-- A check of R361 fails in a slice: FK_ROUND_CHECK from the round stage that disagreed, else from the slice. -/
def raiseRound (ch : Chip) (cl slice : Nat) (site : CheckSite) : Chip :=
  match site with
  | .stage k => raise ch (0x6000 + 17 * cl + slice) fkRoundCheck (ctxPlain k.val)
  | .multiply => raise ch (srcSlice cl slice) fkRoundCheck (ctxPlain 0)
  | .fold => raise ch (srcSlice cl slice) fkRoundCheck (ctxPlain 0)

/-- The standby slice takes the retry: the cluster has one, only one block failed, and it has not failed there (R362). -/
def retryStandby (ch : Chip) (cl : Nat) (r : Retry) : Option Nat :=
  match r.blocks, standbyStream ch cl with
  | [b], some s => if b.2.contains s then none else some s
  | _, _ => none

/-- A retry waits for the issue stage's next cycle: it does not run on the standby slice (R362). -/
def retryNeedsCycle (ch : Chip) (cl : Nat) : Bool :=
  match (getCluster ch cl).retry with
  | r :: _ => (retryStandby ch cl r).isNone
  | [] => false

/-- The cluster can issue. -/
def clusterRuns (ch : Chip) (cl : Nat) : Bool :=
  !halted ch && !unitOut ch (srcCluster cl) && 0 < activeStream ch cl

/-- One issue cycle of a cluster; `fails` are the blocks that fail their check. -/
def issueOne (ch : Chip) (cl : Nat) (fails : List BlockFail) : Chip :=
  match pickFlit ch cl with
  | none => ch
  | some (i, turn, deficit) =>
    let x := getCluster ch cl
    match x.staging[i]? with
    | none => ch
    | some f =>
      let upTo := min 16 (f.done + activeStream ch cl)
      let bad := fails.filter fun b => f.done ≤ b.lane.val && b.lane.val < upTo
      let f' := { f with done := upTo }
      let stamps := if f.second then (x.secondAt.filter fun t => ch.cycle < t + 256) ++ [ch.cycle] else x.secondAt
      let x := { x with turn := turn, deficit := deficit, secondAt := stamps }
      if bad.isEmpty then
        if upTo = 16 then flitDone (setCluster ch cl { x with staging := x.staging.eraseIdx i }) f'
        else setCluster ch cl { x with staging := x.staging.set i f' }
      else
        let blocks := ((bad.map (·.lane)).eraseDups).map fun l => (l, [servingSlice ch cl 0 l])
        let x := { x with staging := x.staging.eraseIdx i, retry := x.retry ++ [{ flit := f', blocks := blocks, turns := 0 }] }
        bad.foldl (fun ch b => raiseRound ch cl (servingSlice ch cl 0 b.lane) b.site) (setCluster ch cl x)

/-- FLIT_ISSUE: one core cycle of the issue stage. A retry that needs the issue stage comes first (R362). -/
def execFlitIssue (cl : Fin 64) (fails : List BlockFail) (s : State) : Out :=
  onChip s fun ch =>
    if clusterRuns ch cl && !retryNeedsCycle ch cl then clusterCycle ch cl fun ch => issueOne ch cl fails else ch

/-! ### BLOCK_RETRY (R362) -/

/-- The slices that failed blocks run on in their next retry: the standby, or the lanes' slices rotated by one more. -/
def retrySlices (ch : Chip) (cl : Nat) (r : Retry) : List ((Fin 16 × List Nat) × Nat) :=
  r.blocks.map fun b => (b, (retryStandby ch cl r).getD (servingSlice ch cl (r.turns + 1) b.1))

/-- CONTEXT of a message that concerns a flit of a request: its tenant and its port (R350, R362). -/
def flitCtx (ch : Chip) (f : StagedFlit) : BitVec 32 :=
  match findReq (getPort ch f.port) f.rid with
  | some q => ctxTenant (sbTenant q.sb) (ctxUnit 1 f.port)
  | none => ctxPlain (ctxUnit 1 f.port)

/-- The failed blocks of a flit are computed again. A block that has failed on three different slices raises
FK_RETRY_LIMIT, which names the tenant, and the flit is held for the reset of the cluster. One that failed on the standby slice
takes a retry cycle (DEDUCED, log entry 146). -/
def retryOne (ch : Chip) (cl : Nat) (fails : List BlockFail) : Chip :=
  let x := getCluster ch cl
  match x.retry with
  | [] => ch
  | r :: rest =>
    let ran := retrySlices ch cl r
    let bad := ran.filter fun b => fails.any (·.lane = b.1.1)
    let x := { x with retry := rest }
    let tell (ch : Chip) : Chip := fails.foldl (fun ch f =>
      match ran.find? fun b => b.1.1 = f.lane with
      | some b => raiseRound ch cl b.2 f.site
      | none => ch) ch
    let blocks := bad.map fun b => (b.1.1, (b.2 :: b.1.2).eraseDups)
    if bad.isEmpty then
      if r.flit.done = 16 then flitDone (setCluster ch cl x) r.flit
      else setCluster ch cl { x with staging := r.flit :: x.staging }
    else if blocks.any fun b => 3 ≤ b.2.length then
      let ch := tell (setCluster ch cl { x with stuck := x.stuck ++ [{ r.flit with done := 0 }] })
      raise ch (srcCluster cl) fkRetryLimit (flitCtx ch r.flit)
    else
      let turns := if (retryStandby ch cl r).isSome then r.turns else r.turns + 1
      tell (setCluster ch cl { x with retry := { r with blocks := blocks, turns := turns } :: x.retry })

/-- BLOCK_RETRY: in a retry cycle of the issue stage, or on the standby slice outside it. -/
def execBlockRetry (cl : Fin 64) (fails : List BlockFail) (s : State) : Out :=
  onChip s fun ch =>
    if !clusterRuns ch cl then ch
    else if retryNeedsCycle ch cl then clusterCycle ch cl fun ch => retryOne ch cl fails
    else retryOne ch cl fails

/-! ### The Currant (R163 to R170) -/

/-- Bytes of a coding unit go to the egress in their own message (R163). -/
def passUnit (ch : Chip) (u : Nat) (f : CurFlit) : Chip :=
  let whole := decide (f.off + f.bytes.length = 4112)
  let mine (m : EMsg) : Bool := m.rid = f.rid && m.kind = 0 && m.shard = f.pos
  let add (m : EMsg) : EMsg := { m with data := m.data ++ f.bytes, tail := if whole then some (stOk, 0) else m.tail }
  modPort ch u fun pt => { pt with msgs := modifyFirst mine add pt.msgs }

/-- The parity of a row is complete: its closing request's PARITY messages are ready (R164). -/
def parityReady (ch : Chip) (u : Nat) (row : Row) : Chip :=
  match row.closer with
  | none => ch
  | some rid =>
    let fill (m : EMsg) : EMsg :=
      if m.rid = rid && m.kind = 1 && !m.ready then
        { m with ready := true, data := row.accs.getD (m.shard - row.ck) [], tail := some (stOk, 0) }
      else m
    modPort ch u fun pt => { pt with msgs := pt.msgs.map fill }

/-- A flit of an ENCODE passes the Currant: into the accumulators of the row its request is part of, while that is open, and
on to the egress (R163, R158, R173). -/
def encodeFlit (ch : Chip) (u : Nat) (q : Req) (f : CurFlit) : Chip :=
  let ch := match rowNo ch u q.row with
    | none => ch
    | some row =>
      let accs := row.accs.zipIdx.map fun a => accAdd (cauchy row.ck a.2 f.pos) f.off f.bytes a.1
      let passed := if f.off + f.bytes.length = 4112 then row.passed ||| 1 <<< f.pos else row.passed
      let row' := { row with accs := accs, passed := passed }
      let ch := modPort ch u fun pt => { pt with cur := { pt.cur with
        rows := pt.cur.rows.map fun r => if r.no = row.no then row' else r } }
      if passed = 2 ^ row.ck - 1 && row.passed != passed then parityReady ch u row' else ch
  passUnit ch u f

/-- Bytes of a DECODE go to the forward half's input of its cluster (R168). -/
def stageBytes (ch : Chip) (u : Nat) (q : Req) (bs : List Byte) : Chip :=
  (chunks 256 bs).foldl (fun ch b =>
    pushForward ch q.cluster { port := u, rid := q.rid, cls := q.cls, order := q.order, bytes := b })
    (modReq ch u q.rid fun q => { q with staged := q.staged + bs.length })

/-- One piece of one unit of the read set: into the reconstruction, and a data unit of a DECODE on to the cluster (R168,
R170). -/
def absorbPiece (u rid : Nat) (ch : Chip) (piece : Nat × Nat × List Byte) : Chip :=
  match findReq (getPort ch u) rid with
  | none => ch
  | some q =>
    let (t, off, bs) := piece
    let coefs := Tbl.get [] (getPort ch u).cur.coefs (sbShard q.sb)
    let accs := q.accs.zipIdx.map fun a => accAdd ((coefs.getD a.2 []).getD t 0#8) off bs a.1
    let pos := (readSet q.ck q.cm q.erased).getD t 0
    let ch := modReq ch u rid fun q => { q with accs := accs }
    if sbOp q.sb = opDecode && pos < q.ck then stageBytes ch u q bs else ch

/-- Cut payload bytes at the boundaries of the 4,112-byte units: unit, offset in it, bytes. -/
def unitPieces : Nat → Nat → List Byte → List (Nat × Nat × List Byte)
  | 0, _, _ => []
  | n + 1, off, bs =>
    if bs.isEmpty then []
    else
      let len := min (4112 - off % 4112) bs.length
      (off / 4112, off % 4112, bs.take len) :: unitPieces n (off + len) (bs.drop len)

/-- A flit of a DECODE or REBUILD; after the last, the reconstructed units go on (R168, R170). -/
def rebuildFlit (ch : Chip) (u : Nat) (q : Req) (f : CurFlit) : Chip :=
  let ch := (unitPieces (f.bytes.length + 1) f.off f.bytes).foldl (absorbPiece u q.rid) ch
  let got := q.curIn + f.bytes.length
  let ch := modReq ch u q.rid fun q => { q with curIn := got }
  if got != q.ck * 4112 then ch
  else
    match findReq (getPort ch u) q.rid with
    | none => ch
    | some q =>
      if sbOp q.sb = opDecode then q.accs.foldl (fun ch a => stageBytes ch u q a) ch
      else
        let order := maskPositions (q.ck + q.cm) q.erased
        let fill (m : EMsg) : EMsg :=
          if m.rid = q.rid && !m.ready then
            { m with ready := true, tail := some (stOk, 0), data := q.accs.getD ((order.findIdx? (· = m.shard)).getD 0) [] }
          else m
        modPort ch u fun pt => { pt with msgs := pt.msgs.map fill }

/-- A flit whose products are kept, and which goes on. -/
def currantTake (ch : Chip) (u : Nat) (f : CurFlit) : Chip :=
  match findReq (getPort ch u) f.rid with
  | none => ch
  | some q => if q.dead then ch else if f.fromReturn then encodeFlit ch u q f else rebuildFlit ch u q f

/-- The Currant takes flits: it is neither fenced nor being reset, and no reaction is in force. -/
def currantRuns (ch : Chip) (u : Nat) : Bool := !halted ch && !unitOut ch (srcCurrant u)

/-- What each byte lane multiplies a flit's byte by; none where no row takes the flit's products (R365). -/
def flitCells (ch : Chip) (u : Nat) (f : CurFlit) : List LaneCells :=
  match findReq (getPort ch u) f.rid with
  | none => []
  | some q =>
    if q.dead then []
    else if f.fromReturn then
      match rowNo ch u q.row with
      | none => []
      | some row =>
        let cells := (List.range row.cm).map fun i => cauchy row.ck i f.pos
        let w := (Tbl.get [] ch.cfg.encodeChecks (sbProfile q.sb)).getD f.pos 0#8
        f.bytes.map fun y => { cells := cells, w := w, y := y }
    else
      let c := (getPort ch u).cur
      let rows := Tbl.get [] c.coefs (sbShard q.sb)
      let ws := Tbl.get [] c.checks (sbShard q.sb)
      (unitPieces (f.bytes.length + 1) f.off f.bytes).flatMap fun p =>
        let cells := rows.map fun r => r.getD p.1 0#8
        p.2.2.map fun y => { cells := cells, w := ws.getD p.1 0#8, y := y }

/-- The first byte lane whose check cell disagrees with its parity cells on a flit (R365, R366). -/
def checkFlit (ch : Chip) (u : Nat) (upset : List LaneUpset) (f : CurFlit) : Option Nat :=
  firstDisagreeing (fun i => (upset.filter (·.lane.val = i)).foldl (fun e x => e ^^^ x.error) 0#8) (flitCells ch u f)

/-- FK_CHECK_COLUMN from the first byte lane that disagreed (R366). -/
def raiseColumn (ch : Chip) (u lane : Nat) : Chip := raise ch (0x7000 + u) fkCheckColumn (ctxPlain lane)

/-- The flit of an input that goes first: the oldest of class 0, else the oldest (R98). -/
def inputNext (ok : CurFlit → Bool) (fs : List CurFlit) : Option (CurFlit × List CurFlit) :=
  (takeFirst (fun f => f.cls = 0 && ok f) fs).orElse fun _ => takeFirst ok fs

/-- The input whose turn it is (R27): the return half before admission, but neither waits twice in a row. A flit that is
not `ok` waits for room (R102). -/
def currantNext (ok : CurFlit → Bool) (c : Currant) : Option (CurFlit × Currant) :=
  match inputNext ok c.fromReturn, inputNext ok c.fromAdmission with
  | none, none => none
  | some (f, r), none => some (f, { c with fromReturn := r, servedReturn := false })
  | none, some (f, a) => some (f, { c with fromAdmission := a, servedReturn := false })
  | some (f, r), some (g, a) =>
    if c.servedReturn then some (g, { c with fromAdmission := a, servedReturn := false })
    else some (f, { c with fromReturn := r, servedReturn := true })

/-- A flit of an ENCODE needs room in the egress. One of a DECODE waits while a flit of its request that the Currant has sent on
waits for the forward half; that of a REBUILD works on its own buffers (R102). -/
def currantFits (ch : Chip) (u : Nat) (f : CurFlit) : Bool :=
  let pt := getPort ch u
  if f.fromReturn then egressRoom pt f.cls f.rid
  else
    match findReq pt f.rid with
    | none => true
    | some q => !(getCluster ch q.cluster).fwdIn.any fun g => g.port = u && g.rid = f.rid && !g.queued

/-- The Currant takes a flit from one of its inputs; one of the admission input leaves the ingress queue (R44). -/
def takeInput (pt : Port) (c : Currant) (f : CurFlit) : Port :=
  let pt := { pt with cur := c }
  if f.fromReturn then pt else queueLeft pt f.cls 1

/-- A fenced Currant computes nothing; the flits of ENCODE requests, whose rows it has discarded, pass it (R173). -/
def currantPasses (ch : Chip) (u : Nat) : Bool := !halted ch && currantDown ch u

/-- CURRANT_FLIT. `upset` holds the errors with which the products of a lane's parity cells came out. -/
def execCurrantFlit (u : Fin 64) (upset : List LaneUpset) (s : State) : Out :=
  onChip s fun ch =>
    let pt := getPort ch u
    let c := pt.cur
    if !(currantRuns ch u || currantPasses ch u) || c.repass.isSome then ch
    else
      match currantNext (currantFits ch u) c with
      | none => ch
      | some (f, c) =>
        match if currantPasses ch u then none else checkFlit ch u upset f with
        | none => currantTake (modPort ch u fun pt => takeInput pt c f) u f
        | some lane => raiseColumn (modPort ch u fun pt => takeInput pt { c with repass := some f } f) u lane

/-- A second disagreement (R366): the row is discarded as by a fence of Un, or the DECODE or REBUILD ends; the flit of an
ENCODE goes on without products. -/
def columnFailed (ch : Chip) (u : Nat) (f : CurFlit) : Chip :=
  match findReq (getPort ch u) f.rid with
  | none => ch
  | some q =>
    if f.fromReturn then
      let ch := match rowNo ch u q.row with
        | some row => discardRow ch u row 3 0x60
        | none => ch
      passUnit ch u f
    else endReq ch u q stAborted 0x60

/-- CHECK_COLUMN_REPASS. -/
def execCheckColumnRepass (u : Fin 64) (upset : List LaneUpset) (s : State) : Out :=
  onChip s fun ch =>
    match (getPort ch u).cur.repass with
    | none => ch
    | some f =>
      if !currantRuns ch u then ch
      else
        let ch := modPort ch u fun pt => { pt with cur := { pt.cur with repass := none } }
        match checkFlit ch u upset f with
        | none => currantTake ch u f
        | some lane => raiseColumn (columnFailed ch u f) u lane

/-! ### VERDICT (R72 to R80) -/

/-- The window of a BRAMBLE_RETURN, while it is still the request's own. -/
def brambleWindow (ch : Chip) (q : Req) : Option (Nat × Range × Window) :=
  match q.job with
  | none => none
  | some j =>
    match getRange ch j with
    | some r => (match r.win with
      | some w => if w.returned && w.fseq = q.jobSeq then some (j, r, w) else none
      | none => none)
    | none => none

/-- A return fails its verdict (R210): the window closes with B unchanged and the job stops. -/
def stopRange (ch : Chip) (q : Req) (unit : Nat) : Chip :=
  match brambleWindow ch q with
  | none => ch
  | some (j, r, _) =>
    let ch := setRange (dropFetch ch j) j (some { r with st := .stopped, win := none, pausing := false })
    event ch 0x0605 0 (some r.tenant) [(j, 12), (r.b, 64), (unit, 16)]

/-- EV_AUTH_FAIL and the count of the tenant's alarm (R73, R238). Where a live range serves the request, it names the slot and
KGEN of the first data unit, as the tail does (DESIGN CHOICE, log entry 129). -/
def recordAuthFail (ch : Chip) (q : Req) (unit : Nat) : Chip :=
  let m := statusMsg q 0 0
  let ch := event ch 0x0301 0 (some (sbTenant q.sb)) [(m.keyidx, 20), (m.kgen, 8), (sbCookie q.sb, 48), (unit, 16)]
  authFail ch (sbTenant q.sb) false

/-- What a final verdict puts on the egress (R75, R76, R79, R80). -/
def verdictMsgs (q : Req) (status detail : Nat) (ms : List EMsg) : List EMsg :=
  let op := sbOp q.sb
  let ok := decide (status = stOk)
  if op = opVerify || (op = opBramble && !ok) then insertMsg (statusMsg q status detail) ms
  else if op = opBramble then
    let whole := decide (q.holdData.length = outLen q)
    insertMsg { reqMsg q 4 0 (outLen q) with
      heldFlag := true, last := true, ends := true, data := q.holdData, tail := if whole then some (stOk, 0) else none } ms
  else if q.held then
    ms.map fun m =>
      if m.rid = q.rid then
        { m with ready := true, tail := some (status, detail)
                 data := if ok then q.holdData else zeros m.outlen }
      else m
  else
    ms.flatMap fun m =>
      if m.rid != q.rid then [m]
      else
        let m := { m with tail := some (status, detail) }
        if ok && !m.headDriven then [{ m with last := true, ends := true }]
        else if ok then [m, statusMsg q stOk 0]
        else [m, zeroFillMsg q m.outlen status detail true]

/-- The verdict of a request becomes final. -/
def finishVerdict (ch : Chip) (p : Nat) (q : Req) (fail : Option Nat) : Chip :=
  let detail := match fail with | some _ => failDetail (sbMode q.sb) | none => 0
  let status := if fail.isSome then stAuthFail else stOk
  let ch := match fail with
    | some unit =>
      let ch := recordAuthFail ch q unit
      if sbOp q.sb = opBramble then stopRange ch q unit else ch
    | none => ch
  let ch := if q.held && fail.isSome then dropFlits ch p q.rid else ch
  let ch := modPort ch p fun pt => { pt with msgs := verdictMsgs q status detail pt.msgs }
  modReq ch p q.rid fun q => { q with verdict := .final fail, holdData := [] }

/-- VERDICT, due when the last row and tag of the message are complete. -/
def execVerdict (p : Fin 64) (ctx : Fin 4096) (s : State) : Out :=
  onChip s fun ch =>
    if halted ch then ch
    else
      match (getPort ch p).reqs.find? fun q => q.ctx = ctx.val && !q.dead with
      | none => ch
      | some q =>
        match q.verdict with
        | .computed fail => finishVerdict ch p q fail
        | _ => ch

end Sys2Proof.Machine
end

