-- ==== Sys2Proof/Machine/Tamper.lean ====
section
/-! DEFINITION. Evidence: the tamper counter, the tamper log and the evidence latch (17_boundary.md, R393 to R397), the kill
of a device secret (R135, 05_keys.md) and logical zeroization of the keys (R133). -/

namespace Sys2Proof.Machine

/-- Log slots (R394) and bits of the tamper counter (R393). -/
def tamperSlots : Nat := 512
def tamperBits : Nat := 2048

/-- Seed of mesh pair k at the start of the always-on supply (R386). -/
def meshInit (k : Nat) : BitVec 31 := BitVec.ofNat 31 (0x55555555 ^^^ k)

/-- One step of a mesh LFSR, x^31 + x^28 + 1, output at bit 0 (R386). -/
def meshStep (v : BitVec 31) : BitVec 31 :=
  (v >>> 1) ||| (if v.getLsbD 0 != v.getLsbD 28 then BitVec.ofNat 31 (2 ^ 30) else 0)

/-- Ticks in which a latched source passes before its latch clears (R388). -/
def latchTicks : Nat := 2 ^ 20

/-- The sequence bit of a tick and its complement, as a mesh pair drives them in its two halves (R386). -/
def halfTicks (b : Bool) : BitVec 6 := if b then 2#6 else 1#6

/-- A tick in which the source passes: a mesh return as driven, an inactive tamper input (R386, Table 17.2). -/
def passTick (latched : Bool) (drive : Option Bool) (x : Sampler) : Sampler :=
  let passed := if latched then min latchTicks (x.passed + 1) else 0
  match drive with
  | some b => { driven := x.driven <<< 2 ||| halfTicks b, seen := x.seen <<< 2 ||| halfTicks b, passed := passed }
  | none => { driven := 0, seen := (x.seen <<< 1) &&& 7#6, passed := passed }

/-- Which of the last `n` ticks failed, newest first: a half-tick return other than driven, or an active input. -/
def failedTicks (mesh : Bool) (n : Nat) (x : Sampler) : List Bool :=
  (List.range n).map fun j =>
    if mesh then fld x.driven (2 * j) 2 != fld x.seen (2 * j) 2 else x.seen.getLsbD j

/-- A tamper log record (Table 17.5). -/
def logRecord (e : Evidence) (boots tcount : Nat) (lost : Nat) : BitVec 512 :=
  let flags := (if e.fromAon then 1 else 0) + (if e.step then 2 else 0) + 4 * lost
  let body := putAt 0x00 1 e.type ||| putAt 0x01 1 e.severity ||| putAt 0x02 2 e.source ||| putAt 0x04 2 boots |||
    putAt 0x06 2 tcount ||| putAt 0x08 8 (if e.fromAon then 0 else e.usec) ||| putAt 0x10 7 e.tick |||
    putAt 0x17 1 flags ||| putAt 0x18 8 e.reading.toNat ||| putAt 0x20 16 e.detail.toNat
  BitVec.ofNat 512 (body ||| putAt 0x3C 4 (crc32 (toLE 60 body)).toNat)

/-- The RIND_FUSED value in force: the OTP fuses (R390). -/
def rindFused (s : State) : BitVec 64 := s.otp.disabled

/-- EV_EVIDENCE (R397). Records kept in OTP's care and those of the evidence latch wait for the next boot. -/
def evEvidence (s : State) : State :=
  let p3 := (if s.aon.tripped != 0 then 1 else 0) + (if s.chip.killedAtBoot then 2 else 0) +
    field 8 8 (s.otp.owed.length + s.aon.latch.length)
  { s with chip := eventRaw s.chip 0x0D08 0 0 s.otp.tamper s.otp.log.length (fld (rindFused s) 0 32) p3 }

/-- The four Pips of a log record (R397). -/
def evRecord (ch : Chip) (r : BitVec 512) : Chip :=
  [0, 1, 2, 3].foldl (fun ch n =>
    eventRaw ch (0x0D04 + n) 0 0 (fld r (128 * n) 32) (fld r (128 * n + 32) 32) (fld r (128 * n + 64) 32)
      (fld r (128 * n + 96) 32)) ch

/-- Try OTP programming up to `n` times: the tries that did not read back, and whether one did (R393, R395). -/
def otpTry : Nat → Otp → Nat → Otp × Nat × Bool
  | 0, o, bad => (o, bad, false)
  | n + 1, o, bad =>
    let r := { o with tries := o.tries + 1 }
    if Config.otpReads o.tries then (r, bad, true) else otpTry n r (bad + 1)

/-- Advance the tamper counter by one (R393): whether it advanced. After three failed bits FK_OTP is raised and the step
is kept. -/
def tamperStep (s : State) : State × Bool :=
  if tamperBits ≤ s.otp.tamper then (s, false)
  else
    match otpTry (min 3 (tamperBits - s.otp.tamper)) s.otp 0 with
    | (o, _, true) => ({ s with otp := { o with tamper := o.tamper + 1 } }, true)
    | (o, _, false) =>
      ({ s with otp := { o with owedSteps := o.owedSteps + 1 }, chip := raise s.chip 0x4000 fkOtp 0 }, false)

/-- EV_OTP_FULL, once per boot (R395). -/
def evOtpFull (ch : Chip) : Chip :=
  if ch.recorder.otpFull then ch
  else event { ch with recorder := { ch.recorder with otpFull := true } } 0x0D03 1 none []

/-- Write a record to the lowest blank slot, with its Pips (R395, R397). It takes the count of lost trips with it (R396). -/
def logWrite (s : State) (e : Evidence) : State :=
  let r := logRecord e s.chip.boots s.otp.tamper s.aon.lost
  let told := { s.aon with lost := 0 }
  let room := tamperSlots - s.otp.log.length
  if room = 0 then evEvidence { s with chip := evRecord (evOtpFull s.chip) r, aon := told }
  else
    match otpTry (min 3 room) s.otp 0 with
    | (o, bad, true) =>
      evEvidence { s with
        otp := { o with log := o.log ++ List.replicate bad none ++ [some r] }
        chip := evRecord s.chip r
        aon := told }
    | (o, bad, false) =>
      evEvidence { s with
        otp := { o with log := o.log ++ List.replicate bad none, owed := o.owed ++ [e] }
        chip := raise s.chip 0x4000 fkOtp 0 }

/-- Write the evidence of an event: a trip advances the counter (R393). -/
def evidenceWrite (s : State) (e : Evidence) : State :=
  if e.type = 1 then
    let r := tamperStep s
    logWrite r.1 { e with step := r.2 }
  else logWrite s e

/-- Keep an event in the evidence latch; beyond 8 entries a trip is counted (R396). -/
def latchEvidence (s : State) (e : Evidence) : State :=
  if !s.aon.present then s
  else if s.aon.latch.length < 8 then { s with aon := { s.aon with latch := s.aon.latch ++ [{ e with fromAon := true }] } }
  else if e.type = 1 then { s with aon := { s.aon with lost := min 63 (s.aon.lost + 1) } }
  else s

/-- Take the evidence of an event (R395, R396). -/
def takeEvidence (s : State) (e : Evidence) : State :=
  if s.chip.powered && !s.chip.pfail then evidenceWrite s e else latchEvidence s e

/-- The evidence of an event of this instant. -/
def evidenceNow (s : State) (type severity source : Nat) (reading : BitVec 64) (detail : BitVec 128) : Evidence :=
  { type := type, severity := severity, source := source, tick := s.aon.tick, reading := reading, detail := detail
    usec := nowUs s.chip }

/-- The device secret in use: the first unkilled one, 0xFF when all are killed (R135). -/
def secretInUse (o : Otp) : Nat := ((List.range 4).find? fun i => !o.killed.getLsbD i).getD 0xFF

/-- Kill the device secret in use (R135): its fuse is programmed and a TYPE 0x05 record written. Without power the
kill-pending latch is set. -/
def killSecret (s : State) : State :=
  if !s.chip.powered then { s with aon := { s.aon with killPending := s.aon.present } }
  else
    let g := s.chip.keys.secretGen
    if 4 ≤ g then s
    else
      let s := { s with otp := { s.otp with killed := s.otp.killed ||| (1#4 <<< g) } }
      takeEvidence s (evidenceNow s 5 0 0 0 (BitVec.ofNat 128 g))

/-- Logical zeroization (R133, R405, R262, R120, R125, R341): VK, TK, CK, key files, tag material, kept tweaks and key
registers go, with the pins, the DRBG state, the BLOB words, KEY_DATA and the staging window. -/
def logicalZeroize (ch : Chip) : Chip :=
  let ch := mapDescs (fun d => setFld d 94 1 0) ch
  { ch with
    keys := { ch.keys with
      vk := none, tk := none, ck := none, awaitCk := [], lregs := [], pins := [] }
    clusters := Tbl.mapVals {} (fun _ cl => { cl with keyFile := [], tweaks := [] }) ch.clusters
    rng := { ch.rng with
      key := [], v := [], seeded := false, noData := true, katOk := false, block := [], blocks := []
      sloes := Tbl.mapVals {} (fun _ => discardOctets) ch.rng.sloes }
    fw := { ch.fw with window := [] }
    mbs := Tbl.mapVals {} (fun i m => { m with blob := [], keyData := if i < 1024 then [] else m.keyData }) ch.mbs }

end Sys2Proof.Machine
end

