-- ==== Sys2Proof/Machine/Xanette.lean ====
section
/-! DEFINITION. The Xanette protocol (11_mailboxes.md): choice of the next command (R248), the checks of Table 11.7 with
Tables 11.8, 12.1 and 13.1, officer authentication (R251 to R255), responses (R245, R254) and jobs (R249). -/

namespace Sys2Proof.Machine

/-! ### Officers -/

/-- The officer of a mailbox: 0 for Officer A, 1 for Officer B. -/
def officerOf (mb : Nat) : Option Nat := if mb = 1025 then some 0 else if mb = 1026 then some 1 else none

def getOfficer (ch : Chip) (o : Nat) : Officer := if o = 0 then ch.keys.offA else ch.keys.offB
def setOfficer (ch : Chip) (o : Nat) (v : Officer) : Chip :=
  if o = 0 then { ch with keys := { ch.keys with offA := v } } else { ch with keys := { ch.keys with offB := v } }

/-- The CHALLENGE of an officer page (R252): NONCE, then COUNT. -/
def challengeOf (f : Officer) : List Byte := bvBytes 12 f.nonce ++ toLE 4 f.count

/-- Consume the challenge (R252): COUNT advances, and a COUNT that would pass its end draws a NONCE afresh. -/
def consumeChallenge (ch : Chip) (o : Nat) : Chip :=
  let f := getOfficer ch o
  if f.count + 1 < 2 ^ 32 then setOfficer ch o { f with count := f.count + 1 }
  else
    let d := drawBytes ch 12
    setOfficer d.2 o { f with nonce := BitVec.ofNat 96 (ofLE d.1), count := 0 }

/-- A failure of officer authentication (R255): EV_OFFICER_AUTH, and the lockout at the eighth in a row. -/
def officerFail (ch : Chip) (o ccount : Nat) : Chip :=
  let ch := event ch 0x0309 0 none [(1025 + o, 11), (ccount, 32)]
  let f := getOfficer ch o
  if f.fails + 1 < 8 then setOfficer ch o { f with fails := f.fails + 1 }
  else event (setOfficer ch o { f with fails := 8, lockUntil := some (nowUs ch + 60000000) }) 0x030A 1 none [(1025 + o, 11)]

/-- The lockout of an officer has run out: it ends and the count of failures restarts (R255). -/
def lockoutOver (ch : Chip) (o : Nat) : Chip :=
  let f := getOfficer ch o
  match f.lockUntil with
  | some t => if t ≤ nowUs ch then setOfficer ch o { f with lockUntil := none, fails := 0 } else ch
  | none => ch

/-! ### Sessions (R127, R128) -/

def sessionOpen (n : Session) : Bool := 1 ≤ n.state && n.state ≤ 3

/-- End the open session (R128): its share goes, EV_DUAL_END is recorded and SESSION raised on both officer pages. -/
def endSession (ch : Chip) (cause : Nat) : Chip :=
  let n := ch.keys.session
  if !sessionOpen n then ch
  else
    let ch := { ch with keys := { ch.keys with session := { n with share := [], state := 5, cause := cause } } }
    let ch := event ch 0x0307 0 none [(n.num, 16), (n.purpose, 8), (cause, 8)]
    attRaise (attRaise ch 0x401 7) 0x402 7

/-- Quince tests expiry before it executes an officer command (R128). -/
def expireSession (ch : Chip) : Chip :=
  let n := ch.keys.session
  if sessionOpen n && n.expiry ≤ nowUs ch then endSession ch 1 else ch

/-- What has run out when a command of a mailbox starts: an officer's session (R128) and lockout (R255). -/
def timesEnded (ch : Chip) (mb : Nat) : Chip :=
  match officerOf mb with
  | some o => lockoutOver (expireSession ch) o
  | none => ch

/-! ### The command set (Tables 11.8, 12.1, 13.1) -/

/-- Who may issue a command, and whether it is served under HALT. -/
structure OpInfo where
  owner : Bool
  officer : Bool
  tenant : Bool
  factory : Bool
  served : Bool
deriving DecidableEq, Repr

/-- The rows of Table 12.1. -/
def opInfoKeys (op : Nat) : Option OpInfo :=
  match op with
  | 0x0101 => some ⟨true, true, true, true, true⟩
  | 0x0102 => some ⟨true, true, true, true, true⟩
  | 0x0103 => some ⟨true, false, false, false, false⟩
  | 0x0104 => some ⟨true, true, true, true, true⟩
  | 0x0105 => some ⟨true, false, false, false, true⟩
  | 0x0106 => some ⟨false, false, false, true, false⟩
  | 0x0201 => some ⟨true, false, false, false, false⟩
  | 0x0202 => some ⟨true, false, false, false, false⟩
  | 0x0203 => some ⟨true, false, true, false, false⟩
  | 0x0204 => some ⟨true, false, true, false, true⟩
  | 0x0205 => some ⟨true, false, false, false, false⟩
  | 0x0301 => some ⟨false, false, true, false, false⟩
  | 0x0302 => some ⟨false, false, true, false, false⟩
  | 0x0303 => some ⟨false, false, true, false, false⟩
  | 0x0304 => some ⟨false, false, true, false, false⟩
  | 0x0305 => some ⟨false, false, true, false, false⟩
  | 0x0306 => some ⟨false, false, true, false, false⟩
  | 0x0307 => some ⟨true, true, true, false, false⟩
  | 0x0308 => some ⟨true, true, true, false, false⟩
  | 0x0309 => some ⟨true, false, true, false, false⟩
  | 0x0401 => some ⟨true, true, true, false, true⟩
  | 0x0402 => some ⟨true, false, false, false, false⟩
  | 0x0C01 => some ⟨false, true, false, false, false⟩
  | 0x0C02 => some ⟨false, true, false, false, false⟩
  | 0x0C03 => some ⟨false, true, false, false, false⟩
  | 0x0C04 => some ⟨false, true, false, false, true⟩
  | 0x0C05 => some ⟨false, true, false, false, false⟩
  | 0x0C06 => some ⟨true, false, false, false, false⟩
  | 0x0C07 => some ⟨false, true, false, false, true⟩
  | _ => none

/-- The rows of Table 13.1. -/
def opInfoData (op : Nat) : Option OpInfo :=
  match op with
  | 0x0501 => some ⟨true, false, false, false, false⟩
  | 0x0502 => some ⟨true, false, false, false, false⟩
  | 0x0503 => some ⟨true, false, true, false, true⟩
  | 0x0504 => some ⟨true, false, false, false, false⟩
  | 0x0505 => some ⟨true, false, false, false, false⟩
  | 0x0506 => some ⟨true, false, false, false, false⟩
  | 0x0507 => some ⟨true, false, true, false, false⟩
  | 0x0601 => some ⟨false, false, true, false, false⟩
  | 0x0602 => some ⟨false, false, true, false, false⟩
  | 0x0603 => some ⟨false, false, true, false, false⟩
  | 0x0604 => some ⟨false, false, true, false, false⟩
  | 0x0605 => some ⟨false, false, true, false, false⟩
  | 0x0606 => some ⟨false, false, true, false, true⟩
  | 0x0607 => some ⟨true, false, false, false, false⟩
  | 0x0701 => some ⟨true, false, false, false, false⟩
  | 0x0702 => some ⟨true, false, false, false, false⟩
  | 0x0703 => some ⟨true, false, false, false, true⟩
  | 0x0704 => some ⟨true, false, true, false, false⟩
  | 0x0705 => some ⟨true, false, true, false, false⟩
  | 0x0706 => some ⟨true, false, true, false, true⟩
  | 0x0801 => some ⟨true, false, false, false, false⟩
  | 0x0802 => some ⟨true, false, false, false, false⟩
  | 0x0803 => some ⟨true, true, false, false, true⟩
  | 0x0804 => some ⟨true, false, false, false, false⟩
  | 0x0805 => some ⟨true, false, false, false, false⟩
  | 0x0901 => some ⟨true, true, false, false, true⟩
  | 0x0902 => some ⟨true, true, true, false, true⟩
  | 0x0903 => some ⟨true, false, false, false, false⟩
  | 0x0904 => some ⟨true, false, false, false, true⟩
  | 0x0A01 => some ⟨true, false, false, false, true⟩
  | 0x0A02 => some ⟨true, false, false, false, false⟩
  | 0x0A03 => some ⟨true, false, false, false, true⟩
  | 0x0A04 => some ⟨true, false, false, false, false⟩
  | 0x0A05 => some ⟨true, false, false, false, false⟩
  | 0x0A06 => some ⟨true, false, false, false, false⟩
  | 0x0B01 => some ⟨true, false, false, true, true⟩
  | 0x0B02 => some ⟨true, false, false, true, false⟩
  | 0x0B03 => some ⟨true, false, false, true, false⟩
  | 0x0B04 => some ⟨true, false, false, true, false⟩
  | 0x0B05 => some ⟨true, false, false, true, false⟩
  | 0x0B06 => some ⟨true, false, false, false, false⟩
  | _ => none

/-- A command of the set; none is an undefined opcode. -/
def opInfo (op : Nat) : Option OpInfo := if op < 0x0500 || 0x0C00 ≤ op then opInfoKeys op else opInfoData op

/-- The command may be issued from a mailbox (check 9). -/
def mayIssue (i : OpInfo) (mb : Nat) : Bool :=
  if mb < 1024 then i.tenant else if mb = 1024 then i.owner else if mb = 1027 then i.factory else i.officer

/-! ### Responses and jobs -/

/-- What a command answers: STATUS, DETAIL, RESULT (bytes 0x10 up as one number) and JOB. -/
structure Reply where
  status : Nat := 0
  detail : Nat := 0
  result : Nat := 0
  job : Nat := 0
deriving DecidableEq, Repr

/-- A refusal at the n-th own check of a command (R260). -/
def failAt (n status : Nat) : Reply := { status := status, detail := 0x80 + n }

/-- A response with ST_OK. -/
def okWith (result : Nat) : Reply := { result := result }

/-- The key that the key loader forms an officer page's RMAC under (R108, R254): the officer's register as it stands, or
for an enrolment that no enrolled key authenticated the key it brings (R291). Empty: it has no key. -/
def rmacKey (ch : Chip) (mb : Nat) (own : Bool) : List Byte :=
  if own then (getMb ch mb).newKey
  else match officerOf mb with
    | some o => (getOfficer ch o).key
    | none => []

/-- RMAC over the first 48 bytes of a response and the challenge consumed (R254); zero where the key loader has no key, as
after a ZEROIZE has cleared the register (DEDUCED, log entry 160). -/
def rmacOf (ch : Chip) (mb : Nat) (chal : Option (List Byte × Bool)) (body : BitVec 512) : Nat :=
  match chal with
  | none => 0
  | some (c, own) =>
    let key := rmacKey ch mb own
    if key.isEmpty then 0 else ofLE (cmac key ((bvBytes 64 body).take 48 ++ c))

/-- Write a response and move its slot to DONE (R243, R245, R254); a response that HOST_RST_N discarded leaves the slot
FREE (R250). The end of a tenant's install clears KEY_DATA (R120), and that of an officer's enrolment KSHARE (R291). -/
def writeResponse (ch : Chip) (x : Executing) (r : Reply) : Chip :=
  let m := getMb ch x.mb
  let sl := Tbl.get {} m.slots x.slot
  let op := cOpcode sl.cmd
  let m := if (op = 0x0301 && x.mb < 1024) || (op = 0x0C05 && (officerOf x.mb).isSome) then { m with keyData := [], newKey := [] } else m
  if x.dropped then setMb ch x.mb { m with slots := Tbl.set {} m.slots x.slot {} }
  else
    let officer := (officerOf x.mb).isSome
    let res := if officer then r.result % 2 ^ 256 else r.result
    let body := mkResp op (cb sl.cmd 2 2) r.status r.detail r.job (if officer then x.ccount else 0) res
    let resp := body ||| BitVec.ofNat 512 (putAt 0x30 16 (rmacOf ch x.mb x.chal body))
    let done : MbSlot := { sl with st := .done, resp := resp }
    attRaise (setMb ch x.mb { m with slots := Tbl.set {} m.slots x.slot done }) x.mb 1

/-- End the command that executes. -/
def finishExec (ch : Chip) (r : Reply) : Chip :=
  match ch.quince.exec with
  | some x => writeResponse { ch with quince := { ch.quince with exec := none } } x r
  | none => ch

def isRunning (j : Job) : Bool := j.result.isNone
def runningJobs (m : Mailbox) : Nat := (m.jobs.filter isRunning).length
def allRunning (ch : Chip) : Nat := ch.mbs.foldl (fun n e => n + runningJobs e.2) 0

/-- A job handle can be reserved (R249). -/
def jobFree (ch : Chip) (mb : Nat) : Bool := runningJobs (getMb ch mb) < 4 && allRunning ch < 64

/-- The handle a mailbox's next job takes (Table 11.9). -/
def nextHandle (ch : Chip) (mb : Nat) : BitVec 32 :=
  let epoch := if mb < 1024 then (getTenant ch mb).epoch else 0
  BitVec.ofNat 32 (field 21 11 mb ||| field 13 8 epoch ||| field 0 13 (getMb ch mb).jobSeq)

/-- Start a job. -/
def startJob (ch : Chip) (mb opcode : Nat) : BitVec 32 × Chip :=
  let h := nextHandle ch mb
  (h, modMb ch mb fun m =>
    { m with jobSeq := (m.jobSeq + 1) % 8192, jobs := m.jobs ++ [{ handle := h, opcode := opcode }] })

def handleMb (h : BitVec 32) : Nat := fld h 21 11

/-- The work of a job has ended; JOB_END stores its result. -/
def jobDue (ch : Chip) (h : BitVec 32) (status detail result : Nat) : Chip :=
  let put (j : Job) : Job := { j with due := some (status, detail, result) }
  modMb ch (handleMb h) fun m => { m with jobs := modifyFirst (fun j => j.handle = h && isRunning j) put m.jobs }

/-- Store the result of a job that ends (R249): a 17th unread result discards the oldest, and JOB is raised. -/
def storeJob (ch : Chip) (h : BitVec 32) (r : Nat × Nat × Nat) : Chip :=
  let mb := handleMb h
  let m := getMb ch mb
  match takeFirst (fun j : Job => j.handle = h && isRunning j) m.jobs with
  | none => ch
  | some (j, rest) =>
    let jobs := rest ++ [{ j with due := none, result := some r }]
    let unread := (jobs.filter fun j => !isRunning j).length
    let ch := match takeFirst (fun j : Job => !isRunning j) jobs with
      | some (old, rest) =>
        if 16 < unread then event (setMb ch mb { m with jobs := rest }) 0x000B 0 none [(old.handle.toNat, 32)]
        else setMb ch mb { m with jobs := jobs }
      | none => setMb ch mb { m with jobs := jobs }
    attRaise ch mb 2

/-! ### Order of service (R247, R248) -/

/-- The mailbox has a SUBMITTED slot. -/
def hasWork (ch : Chip) (mb : Nat) : Bool := !(getMb ch mb).order.isEmpty

/-- The privileged mailbox whose turn it is, in round robin from `privNext`; a requested configuration commit waits as a
command of the owner (R330). -/
def nextPriv (ch : Chip) : Option Nat :=
  ((List.range 4).map fun i => 1024 + (ch.quince.privNext + i) % 4).find? fun mb =>
    hasWork ch mb || (mb = 1024 && ch.quince.commitBusy)

/-- The tenant whose turn it is. -/
def nextTenant (ch : Chip) : Option Nat :=
  let ts := (ch.mbs.filter fun e => e.1 < 1024 && !e.2.order.isEmpty).map (·.1)
  (ts.find? (ch.quince.tenNext ≤ ·)).orElse fun _ => ts.head?

/-- The mailbox that Quince serves next (R248). -/
def nextMailbox (ch : Chip) : Option Nat :=
  let t := nextTenant ch
  if 15 ≤ ch.quince.privRun && t.isSome then t else (nextPriv ch).orElse fun _ => t

/-- Quince serves commands: after READY, or after a boot that a trip has stopped (R389). -/
def serving (ch : Chip) : Bool := ch.dstate != 0 && ch.quince.exec.isNone

/-- The turn passes on from a mailbox. -/
def takeTurn (ch : Chip) (mb : Nat) : Chip :=
  let q := ch.quince
  if mb < 1024 then { ch with quince := { q with tenNext := (mb + 1) % 1024, privRun := 0 } }
  else { ch with quince := { q with privNext := (mb - 1024 + 1) % 4, privRun := q.privRun + 1 } }

/-! ### The checks of Table 11.7 -/

/-- Commands that name the BLOB registers (R262). -/
def takesBlob (op : Nat) : Bool := op = 0x0301 || op = 0x0306 || op = 0x0505 || op = 0x0801

/-- What a command's own part works on. -/
structure Call where
  mb : Nat
  slot : Nat
  cmd : CommandWord
  /-- The BLOB words taken at its start (R262). -/
  blob : Tbl (Option Word64)
  /-- The challenge it consumed, as `Executing.chal` holds it. -/
  chal : Option (List Byte × Bool)
  ccount : Nat
  /-- Consecutive failures of its officer before it (R255). -/
  fails : Nat
deriving DecidableEq, Repr

/-- A command ends with a reply, or waits. -/
inductive Act where
  | reply (r : Reply)
  | wait (w : Wait)
deriving DecidableEq, Repr

/-- Words of KEY_DATA or KSHARE that are written. -/
def wordWritten (m : Mailbox) (i : Nat) : Bool := (Tbl.get none m.keyData i).isSome

/-- Bytes of the first `n` KEY_DATA or KSHARE words. -/
def keyDataBytes (m : Mailbox) (n : Nat) : List Byte :=
  (List.range n).flatMap fun i => bvBytes 8 ((Tbl.get none m.keyData i).getD 0)

/-- Check 6: the key that AUTH is to verify under. An UNENROLLED officer's page takes only an enrolment, verified under the
new key (R251, R291). -/
def authKey (ch : Chip) (o : Nat) (op : Nat) : Option (List Byte) :=
  let f := getOfficer ch o
  if f.enrolled then some f.key
  else if op = 0x0C05 then some (keyDataBytes (getMb ch (1025 + o)) 4)
  else none

/-- A tenant page's state permits a command (check 10, R226). -/
def tenantRefusal (ch : Chip) (t op : Nat) : Option Nat :=
  match (getTenant ch t).st with
  | .enabled => none
  | .disabled => some stDenied
  | .resetting => some stBusy
  | .faulted => if op = 0x0204 || op = 0x0303 then none else some stDenied

/-- Checks 7 to 10 of Table 11.7. -/
def laterChecks (ch : Chip) (mb : Nat) (cmd : CommandWord) : Option (Nat × Nat) :=
  let op := cOpcode cmd
  if cb cmd 4 12 != 0 || ((officerOf mb).isNone && cb cmd 0x70 16 != 0) then some (7, stBadField)
  else
    match opInfo op with
    | none => some (8, stBadOpcode)
    | some i =>
      if !mayIssue i mb then some (9, stDenied)
      else if mb < 1024 then (tenantRefusal ch mb op).map fun st => (10, st)
      else none

/-- Commands that the boot ROM serves, when no image has verified (R443). -/
def romServes (mb : Nat) (cmd : CommandWord) : Bool :=
  let op := cOpcode cmd
  (mb = 1024 || mb = 1027) &&
    (op = 0x0101 || op = 0x0102 || (0x0B01 ≤ op && op ≤ 0x0B04) || (op = 0x0B05 && cb cmd 0x11 1 = 1))

/-- Checks 1 to 5 of Table 11.7. The boot ROM answers ST_BUSY, with DETAIL 0, to every command that it does not serve
(R443; DEDUCED, log entry 82). -/
def earlyChecks (s : State) (mb : Nat) (cmd : CommandWord) : Option (Nat × Nat) :=
  let ch := s.chip
  let served := match opInfo (cOpcode cmd) with | some i => i.served | none => false
  if ch.fw.rom && !romServes mb cmd then some (0, stBusy)
  else if ch.fw.handover then some (1, stBusy)
  else if halted ch && !served then some (2, stHalted)
  else if mb = 1027 && s.otp.locked then some (3, stDenied)
  else
    match officerOf mb with
    | none => none
    | some o =>
      if !ch.rng.seeded then some (4, stRngUnseeded)
      else match (getOfficer ch o).lockUntil with
        | some e => if nowUs ch < e then some (5, stDenied) else none
        | none => none

/-- PARAMS bits outside `mask` (a list of byte offset and bit width) are zero (R260 step 1, R10). -/
def paramsOk (cmd : CommandWord) (fields : List (Nat × Nat)) : Bool :=
  let m := fields.foldl (fun a f => a ||| (2 ^ f.2 - 1) <<< (8 * f.1)) 0
  let body := cmd.toNat % 2 ^ 896 / 2 ^ 128 * 2 ^ 128
  body = body &&& m

/-- Run the command at the head of a mailbox, when Quince would serve that mailbox next and the command has the opcode:
the checks of Table 11.7, the unlisted bytes of R260, and the command's own part. -/
def runCommand (s : State) (mb : Nat) (want : Nat → Bool) (fields : List (Nat × Nat))
    (own : State → Call → State × Act) : State :=
  let ch := s.chip
  let m := getMb ch mb
  match m.order with
  | [] => s
  | slot :: rest =>
    let sl := Tbl.get {} m.slots slot
    let op := cOpcode sl.cmd
    if !serving ch || nextMailbox ch != some mb || !want op then s
    else
      let blob := if takesBlob op then m.blob else []
      let m := { m with
        order := rest
        slots := Tbl.set {} m.slots slot { sl with st := .executing }
        blob := if takesBlob op then [] else m.blob
        newKey := if op = 0x0C05 && (officerOf mb).isSome then keyDataBytes m 4 else m.newKey }
      let ch := takeTurn (setMb ch mb m) mb
      let ch := timesEnded ch mb
      let x : Executing := { mb := mb, slot := slot, wait := .flush 0, chal := none, ccount := 0, dropped := false }
      let answer (s : State) (x : Executing) (r : Reply) : State := { s with chip := writeResponse s.chip x r }
      let s := { s with chip := ch }
      match earlyChecks s mb sl.cmd with
      | some (n, st) => answer s x { status := st, detail := n }
      | none =>
        let go (s : State) (x : Executing) (fails : Nat) : State :=
          match laterChecks s.chip mb sl.cmd with
          | some (n, st) => answer s x { status := st, detail := n }
          | none =>
            if !paramsOk sl.cmd fields then answer s x { status := stBadField, detail := 0x80 }
            else
              let c : Call := { mb := mb, slot := slot, cmd := sl.cmd, blob := blob, chal := x.chal, ccount := x.ccount, fails := fails }
              match own s c with
              | (s, .reply r) => answer s x r
              | (s, .wait w) => { s with chip := { s.chip with quince := { s.chip.quince with exec := some { x with wait := w } } } }
        match officerOf mb with
        | none => go s x 0
        | some o =>
          let f := getOfficer s.chip o
          let chal := challengeOf f
          let key := authKey s.chip o op
          let ch := consumeChallenge s.chip o
          let pass : Bool := match key with
            | some k => decide <| cb sl.cmd 0x70 16 = ofLE (cmac k ((bvBytes 128 sl.cmd).take 112 ++ chal))
            | none => false
          let x := { x with ccount := f.count, chal := if f.enrolled || pass then some (chal, !f.enrolled) else none }
          if pass then go { s with chip := setOfficer ch o { getOfficer ch o with fails := 0 } } x f.fails
          else answer { s with chip := officerFail ch o f.count } x { status := stAuthFail, detail := 6 }

end Sys2Proof.Machine
end

