-- ==== Sys2Proof/Machine/Vault.lean ====
section
/-! DEFINITION. Custody keys and the key vault: blobs (R109), KEKs, GTKs and officer keys (R108, R110, R457), vault records
(R112, R113, R432), dual-control sessions (R127, R128) and the group descriptor (R452 to R455). -/

namespace Sys2Proof.Machine

/-! ### Blobs (Table 5.2) -/

def magicDkb1 : List Byte := [0x44, 0x4B, 0x42, 0x31]
def magicDkk1 : List Byte := [0x44, 0x4B, 0x4B, 0x31]
def magicDgk1 : List Byte := [0x44, 0x47, 0x4B, 0x31]
def magicDok1 : List Byte := [0x44, 0x4F, 0x4B, 0x31]

/-- The attribute block of a custody blob. -/
def attrBlock (tenant b6 epoch : Nat) (magic : List Byte) : List Byte :=
  zeros 4 ++ toLE 2 tenant ++ toLE 1 b6 ++ zeros 1 ++ toLE 4 epoch ++ magic

/-- A DKK1 blob under a wrapping key. -/
def dkkBlob (wrap : List Byte) (tenant slot : Nat) (kek : List Byte) : List Byte :=
  kwWrap wrap (attrBlock tenant slot 0 magicDkk1 ++ kek)

/-- A DGK1 blob under TK. -/
def dgkBlob (tk : List Byte) (epoch : Nat) (gtk : List Byte) : List Byte :=
  kwWrap tk (attrBlock 0 0 epoch magicDgk1 ++ gtk)

/-- A DOK1 blob under TK. -/
def dokBlob (tk : List Byte) (o : Nat) (key : List Byte) : List Byte := kwWrap tk (attrBlock 0 o 0 magicDok1 ++ key)

/-! ### Quince-memory records (R106) -/

/-- A custody key as Quince memory holds it: AES-KW under K1 of CK. -/
def memRecord (ck key : List Byte) : List Byte := kwWrap (ck.take 32) key

/-- The key of a Quince-memory record. -/
def memKey (ch : Chip) (record : List Byte) : Option (List Byte) :=
  match ch.keys.ck with
  | some ck => kwUnwrap (ck.take 32) record
  | none => none

/-- The key that wraps vault records of a type: VK for KEKs, TK for the others (R105). -/
def custodyWrap (ch : Chip) (type : Nat) : Option (List Byte) := if type = 1 then ch.keys.vk else ch.keys.tk

def getKek (ch : Chip) (idx : Nat) : Kek := Tbl.get {} ch.keys.keks idx
def setKek (ch : Chip) (idx : Nat) (k : Kek) : Chip :=
  { ch with keys := { ch.keys with keks := Tbl.set {} ch.keys.keks idx k } }

/-- The KEK of a slot in clear. -/
def kekKey (ch : Chip) (idx : Nat) : Option (List Byte) :=
  let k := getKek ch idx
  if k.source = 0 then none else memKey ch k.record

/-! ### Sessions (R127, R128) -/

/-- The open session reserves a KEK slot. -/
def kekReserved (ch : Chip) (idx : Nat) : Bool :=
  let n := ch.keys.session
  sessionOpen n && n.purpose = 1 && 16 * n.tenant + n.kekslot = idx

/-- The session has completed. -/
def completeSession (ch : Chip) (kcv : List Byte) : Chip :=
  { ch with keys := { ch.keys with session := { ch.keys.session with share := [], state := 4, kcv := kcv } } }

/-! ### Vault records (Table 5.4) -/

def vaultPositions : Nat := 65536

/-- The 128 bytes of a record. -/
def vaultBytes (v : VaultReq) (seq : Nat) : List Byte :=
  let body := toLE 1 v.type ++ zeros 1 ++ toLE 2 v.index ++ toLE 1 v.erased ++ zeros 3 ++ toLE 4 seq ++ zeros 4 ++
    fitBytes 56 v.blob ++ zeros 52
  body ++ toLE 4 (crc32 body).toNat

def keyRecord (why : VaultWhy) (type index : Nat) (blob : List Byte) : VaultReq :=
  { why := why, type := type, index := index, erased := 0, blob := blob }
def eraseRecord (why : VaultWhy) (type index : Nat) : VaultReq :=
  { why := why, type := 4, index := index, erased := type, blob := [] }

/-- R263: a device out of service, or PFAIL_N asserted. -/
def flashRefusal (ch : Chip) : Option Reply :=
  if !(ch.xspi0.inService && ch.xspi1.inService) then some { status := stBusy, detail := 0x7E }
  else if ch.pfail then some { status := stAborted, detail := 0x7F }
  else none

/-- R263 for a command that writes the vault, with the erase of R432. -/
def vaultRefusal (ch : Chip) : Option Reply :=
  if ch.fw.vaultErase then some { status := stBusy, detail := 0x7E } else flashRefusal ch

/-- Request the write of the first vault record that waits, on both devices, when it may start (R432). -/
def vaultKick (ch : Chip) : Chip :=
  match ch.fw.vaultQ with
  | v :: rest =>
    if v.sent || ch.pfail || !(ch.xspi0.inService && ch.xspi1.inService) then ch
    else
      let seq := ch.fw.vaultSeq + 1
      let v := { v with sent := true, seq := seq, d0 := none, d1 := none }
      let op : FlashOp := { owner := .quince, tag := .vault, addr := vaultBase + 128 * ch.fw.vaultPos
                            bytes := some (vaultBytes v seq) }
      xsPushAll { ch with fw := { ch.fw with vaultQ := v :: rest } } op
  | [] => ch

/-- Append a record to those to be written. -/
def vaultWrite (ch : Chip) (v : VaultReq) : Chip :=
  vaultKick { ch with fw := { ch.fw with vaultQ := ch.fw.vaultQ ++ [v] } }

/-- What the command that executes does once its record is verified (R113). -/
def vaultVerified (ch : Chip) : Chip :=
  match ch.quince.exec with
  | none => ch
  | some x =>
    match x.wait with
    | .kekLoad idx source record result =>
      finishExec (setKek ch idx { source := source, record := record }) (okWith result)
    | .kekErase idx result => finishExec (setKek ch idx {}) (okWith result)
    | .dualKek idx record result kcv =>
      finishExec (completeSession (setKek ch idx { source := 1, record := record }) kcv) (okWith result)
    | .dualGtk true epoch blob record result kcv =>
      if ch.pfail then finishExec (endSession ch 5) { status := stAborted, detail := 0x7F }
      else
      let x := { x with wait := .dualGtk false epoch blob record result kcv }
      vaultWrite { ch with quince := { ch.quince with exec := some x } } (keyRecord .command 2 0 blob)
    | .dualGtk false epoch _ record result kcv =>
      let ch := { ch with keys := { ch.keys with gtkPrev := ch.keys.gtkCur, gtkCur := some { epoch := epoch, record := record } } }
      finishExec (completeSession ch kcv) (okWith result)
    | .enrol o result =>
      let f := getOfficer ch o
      finishExec (setOfficer ch o { f with key := (getMb ch (1025 + o)).newKey, enrolled := true, allowUntil := none })
        (okWith result)
    | _ => ch

/-- A command whose vault record could not be written ends (R132, R263): the session of a share purpose ends too. -/
def vaultAbort (ch : Chip) (cause : Nat) : Chip :=
  match ch.quince.exec with
  | none => ch
  | some x =>
    let fail : Reply := { status := stAborted, detail := 0x7F }
    match x.wait with
    | .kekLoad .. => finishExec ch fail
    | .kekErase .. => finishExec ch fail
    | .dualKek .. => finishExec (endSession ch cause) fail
    | .dualGtk .. => finishExec (endSession ch cause) fail
    | .enrol .. => finishExec ch fail
    | _ => ch

/-- The record under way has been verified: its continuation, then the next record. -/
def vaultDone (ch : Chip) (v : VaultReq) (rest : List VaultReq) : Chip :=
  let ch := { ch with fw := { ch.fw with vaultQ := rest } }
  let ch := match v.why with
    | .command => vaultVerified ch
    | .purge idx =>
      modTenant (setKek ch idx {}) (idx / 16) fun t =>
        { t with kekLeft := t.kekLeft.filter (· != idx), purged := (t.purged.1, t.purged.2.1 + 1, t.purged.2.2) }
    | .compact => ch
  vaultKick ch

/-- A record that reads back stands in the vault with its sequence (R112). -/
def seqTaken (ch : Chip) (seq : Nat) (ok : Bool) : Chip :=
  if ok then { ch with fw := { ch.fw with vaultSeq := max ch.fw.vaultSeq seq } } else ch

/-- A device reports the record under way; once both have, it is verified, or its position is spoiled and it goes to the
next (R432). -/
def vaultReport (ch : Chip) (d : Fin 2) (ok : Bool) : Chip :=
  match ch.fw.vaultQ with
  | [] => ch
  | v :: rest =>
    let ch := seqTaken ch v.seq ok
    let v := if d = 0 then { v with d0 := some ok } else { v with d1 := some ok }
    match v.d0, v.d1 with
    | some a, some b =>
      let ch := { ch with fw := { ch.fw with vaultPos := (ch.fw.vaultPos + 1) % vaultPositions } }
      if a && b then vaultDone ch v rest
      else vaultKick { ch with fw := { ch.fw with vaultQ := { v with sent := false } :: rest } }
    | _, _ => { ch with fw := { ch.fw with vaultQ := v :: rest } }

/-- Drop the operations of a vault record from both controllers' queues. -/
def dropVaultOps (ch : Chip) : Chip :=
  let drop (x : Xspi) : Xspi := { x with queue := x.queue.filter (·.tag != .vault) }
  { ch with xspi0 := drop ch.xspi0, xspi1 := drop ch.xspi1 }

/-- The record under way is given up: a command's ends with its command, another waits to be written again. -/
def vaultGiveUp (ch : Chip) (cause : Nat) : Chip :=
  match ch.fw.vaultQ with
  | [] => ch
  | v :: rest =>
    let ch := dropVaultOps ch
    match v.why with
    | .command => vaultAbort { ch with fw := { ch.fw with vaultQ := rest } } cause
    | _ => { ch with fw := { ch.fw with vaultQ := { v with sent := false, d0 := none, d1 := none } :: rest } }

/-! ### What the vault holds -/

/-- A valid record: position, type, index, erased type, sequence, blob. -/
structure VaultRec where
  pos : Nat
  type : Nat
  index : Nat
  erased : Nat
  seq : Nat
  blob : List Byte
deriving DecidableEq, Repr

/-- The record at a position of a device, when its CRC is correct (Table 5.4). -/
def vaultRead (f : Tbl FlitData) (pos : Nat) : Option VaultRec :=
  let b := flashRead f (vaultBase + 128 * pos) 128
  let n := ofLE b
  if (crc32 (b.take 124)).toNat = bytesAt n 124 4 then
    some { pos := pos, type := bytesAt n 0 1, index := bytesAt n 2 2, erased := bytesAt n 4 1, seq := bytesAt n 8 4
           blob := (b.drop 16).take 56 }
  else none

/-- The valid records of a device, by position. -/
def vaultScan (f : Tbl FlitData) : List VaultRec :=
  let first := vaultBase / 256
  (f.filter fun e => first ≤ e.1 && e.1 < first + 32768).flatMap fun e =>
    ((vaultRead f (2 * (e.1 - first))).toList) ++ ((vaultRead f (2 * (e.1 - first) + 1)).toList)

/-- The type and index that a record speaks of. -/
def recKey (r : VaultRec) : Nat × Nat := if r.type = 4 then (r.erased, r.index) else (r.type, r.index)

/-- The records with the highest sequence of each index (R113). -/
def latestRecords (rs : List VaultRec) : List VaultRec :=
  rs.filter fun r => !rs.any fun q => recKey q = recKey r && r.seq < q.seq

/-- Sectors after the write sector that are blank on both devices, before the first that is not (R432). -/
def erasedAhead (s : State) : Nat :=
  let cur := s.chip.fw.vaultPos / 512
  (((List.range 127).takeWhile fun i =>
    let a := vaultBase + 0x10000 * ((cur + 1 + i) % 128)
    sectorBlank s.flash0 a && sectorBlank s.flash1 a)).length

/-- The oldest sector that holds any valid record: the first after the write sector in ring order. -/
def vaultTail (s : State) (rs : List VaultRec) : Option Nat :=
  let cur := s.chip.fw.vaultPos / 512
  ((List.range 128).map fun i => (cur + 1 + i) % 128).find? fun k => rs.any fun r => r.pos / 512 = k

/-- Once the copies of a compaction are written, at once where there is none, erase the tail on both devices (R432). -/
def vaultCompactErase (ch : Chip) : Chip :=
  match ch.fw.compacting with
  | none => ch
  | some tail =>
    let busy (x : Xspi) := (xsOps x).any (·.tag = .compact)
    if ch.fw.vaultQ.any (·.why = .compact) || busy ch.xspi0 || busy ch.xspi1 then ch
    else xsPushAll ch { owner := .quince, tag := .compact, addr := vaultBase + 0x10000 * tail, bytes := none }

/-- Start a compaction when fewer than 4 erased sectors lie ahead (R432). -/
def vaultCompact (s : State) : State :=
  let ch := s.chip
  if !ch.fw.vaultQ.isEmpty || ch.fw.compacting.isSome || ch.fw.vaultErase || ch.pfail ||
      !(ch.xspi0.inService && ch.xspi1.inService) || 4 ≤ erasedAhead s then s
  else
    let rs := vaultScan s.flash0 ++ vaultScan s.flash1
    match vaultTail s rs with
    | none => s
    | some tail =>
      let live := ((latestRecords rs).filter fun r => r.type != 4 && r.pos / 512 = tail).foldl
        (fun acc r => if acc.any fun q => recKey q = recKey r then acc else acc ++ [r]) ([] : List VaultRec)
      let ch := { ch with fw := { ch.fw with compacting := some tail } }
      let ch := live.foldl (fun ch r => vaultWrite ch (keyRecord .compact r.type r.index r.blob)) ch
      { s with chip := vaultCompactErase ch }

/-! ### Groups (20_groups.md) -/

/-- Fields of a group descriptor (Table 20.1). -/
def gdField (d : List Byte) (off n : Nat) : Nat := ofLE ((d.drop off).take n)
def gdEpoch (d : List Byte) : Nat := gdField d 0x08 4
def gdMembers (d : List Byte) : Nat := gdField d 0x0C 2
def gdSlot (d : List Byte) : Nat := gdField d 0x70 2

/-- The ECDSA key of the owner key block in force (R437). -/
def ownerEcdsaKey (ch : Chip) : List Byte := ch.fw.ownerKeys.take 97

/-- A descriptor verifies (R453). -/
def gdVerifies (ch : Chip) (d : List Byte) : Bool :=
  d.take 4 = [0x44, 0x47, 0x44, 0x53] && gdField d 4 1 = 1 && gdField d 5 3 = 0 && gdField d 0x0E 2 = 0 &&
  gdField d 0x14 12 = 0 && gdField d 0x72 46 = 0 && gdField d 0x71 1 / 16 = 0 && gdEpoch d != 0xFFFFFFFF &&
  1 ≤ gdMembers d && gdMembers d ≤ 4096 &&
  Config.ecdsaP384Verify (ownerEcdsaKey ch) (d.take 0xA0) ((d.drop 0xA0).take 96)

/-- TLVs of a settings area (R439): TYPE, LENGTH, and the padded bytes; none when malformed. -/
def tlvParse : Nat → List Byte → Option (List (Nat × Nat × List Byte))
  | 0, _ => some []
  | n + 1, bs =>
    if bs.length < 4 then some []
    else
      let ty := ofLE (bs.take 2)
      let len := ofLE ((bs.drop 2).take 2)
      let pad := ceilDiv len 4 * 4
      if ty = 0 then some []
      else if bs.length < 4 + pad then none
      else (tlvParse n (bs.drop (4 + pad))).map fun rest => (ty, len, (bs.drop 4).take pad) :: rest

def tlvsOf (area : List Byte) : Option (List (Nat × Nat × List Byte)) := tlvParse (area.length / 4 + 1) area

/-- The policy digest (R455). -/
def policyDigest (area : List Byte) : List Byte :=
  let ts := (tlvsOf area).getD []
  sha384 ((ts.filter fun t => t.1 ∈ [2, 5, 6, 7, 8]).flatMap fun t => toLE 2 t.1 ++ toLE 2 t.2.1 ++ t.2.2)

/-- RELEASE of the running image; 0 in the boot ROM (R443). -/
def runningImg (ch : Chip) : Img := if ch.fw.running = 0 then ch.fw.imgA else ch.fw.imgB
def runningRelease (ch : Chip) : Nat := if ch.fw.rom then 0 else (runningImg ch).release

/-- MATCH (R306, R455). -/
def computeMatch (ch : Chip) : Nat :=
  let d := ch.fw.desc
  if d.isEmpty then 0
  else
    (if gdField d 0x10 4 ≤ runningRelease ch then 1 else 0) +
    (if (d.drop 0x30).take 48 = policyDigest ch.fw.tlvs then 2 else 0)

def setMatch (ch : Chip) : Chip := { ch with fw := { ch.fw with matchBits := computeMatch ch } }

/-- A group record of 512 bytes (R431). -/
def groupRecord (seq type epoch : Nat) (desc : List Byte) : List Byte :=
  let body := [0x44, 0x47, 0x52, 0x50] ++ toLE 1 type ++ zeros 3 ++ toLE 4 seq ++ toLE 4 epoch ++ zeros 16 ++
    fitBytes 256 desc ++ zeros 220
  body ++ toLE 4 (crc32 body).toNat

/-- A boot record of 32 bytes (Table 19.5). -/
def bootRecord (ch : Chip) (seq : Nat) : List Byte :=
  let f := ch.fw
  let set := if f.setCopy = 0 then f.set0 else f.set1
  let img := if f.bootSlot = 0 then f.imgA else f.imgB
  let body := [0x44, 0x42, 0x4F, 0x54] ++ toLE 1 f.bootSlot ++ toLE 1 f.setCopy ++ toLE 1 f.vaultGen ++ zeros 1 ++
    toLE 4 seq ++ toLE 4 set.release ++ toLE 4 img.release ++ zeros 8
  body ++ toLE 4 (crc32 body).toNat

/-- Write a boot record (R430). -/
def writeBoot (ch : Chip) : Chip :=
  let seq := ch.fw.bootSeq + 1
  let ch := { ch with fw := { ch.fw with bootSeq := seq } }
  xsPushAll ch { owner := .quince, tag := .boot, addr := bootBase, bytes := some (bootRecord ch seq) }

/-- Write a group record (R431). -/
def writeGroup (ch : Chip) (type epoch : Nat) (desc : List Byte) : Chip :=
  let seq := ch.fw.groupSeq + 1
  let ch := { ch with fw := { ch.fw with groupSeq := seq } }
  xsPushAll ch { owner := .quince, tag := .group, addr := groupBase, bytes := some (groupRecord seq type epoch desc) }

end Sys2Proof.Machine
end

