-- ==== Sys2Proof/Machine/Journal.lean ====
section
/-! DEFINITION. Damson's reservations and the lease journal (06_counters.md, R138 to R152). -/

namespace Sys2Proof.Machine

def setDamson (ch : Chip) (f : Damson → Damson) : Chip := { ch with damson := f ch.damson }

/-- Journal positions of a device: 256 sectors of 2,048 (R144). -/
def journalPositions : Nat := 524288

/-- A lease record (Table 6.2). -/
def leaseRecord (r : Reservation) (boots : Nat) : List Byte :=
  let body := [0x44, 0x4C, 0x53, 0x45] ++ toLE 1 r.reason ++ zeros 1 ++
    toLE 2 (r.slot % 4096 + if r.grouped then 32768 else 0) ++ toLE 6 r.lease ++ toLE 2 boots ++ toLE 6 r.prev ++ zeros 6
  body ++ toLE 4 (crc32 body).toNat

/-- What a valid lease record holds: LEASE and boot count (Table 6.2, R144). -/
def leaseRead (f : Tbl FlitData) (pos : Nat) : Option (Nat × Nat) :=
  let b := flashRead f (journalBase + 32 * pos) 32
  let n := ofLE b
  let reason := bytesAt n 4 1
  if b.take 4 = [0x44, 0x4C, 0x53, 0x45] && 1 ≤ reason && reason ≤ 4 && bytesAt n 5 1 = 0 && bits n 60 3 = 0 &&
      bits n 108 4 = 0 && bytesAt n 0x16 6 = 0 && (crc32 (b.take 28)).toNat = bytesAt n 28 4 then
    some (bits n 64 44, bytesAt n 14 2)
  else none

/-- A position reads all 0xFF (R144). -/
def leaseBlank (f : Tbl FlitData) (pos : Nat) : Bool :=
  flashRead f (journalBase + 32 * pos) 32 = List.replicate 32 0xFF#8

def wposOf (m : Damson) (d : Fin 2) : Nat := if d = 0 then m.wpos0 else m.wpos1
def setWpos (m : Damson) (d : Fin 2) (w : Nat) : Damson := if d = 0 then { m with wpos0 := w } else { m with wpos1 := w }

/-- Address of a journal sector, the sector after 255 being 0 (R145). -/
def journalSector (sector : Nat) : Nat := journalBase + 0x10000 * (sector % 256)

/-- Erase a journal sector of a device (R147). -/
def journalErase (s : State) (d : Fin 2) (sector : Nat) : State :=
  { s with chip := xsPush s.chip d { owner := .damson, tag := .journalErase, addr := journalSector sector, bytes := none } }

/-- Erase whichever of the two sectors after a device's write sector is not blank (R149). -/
def journalAhead (s : State) (d : Fin 2) : State :=
  let w := wposOf s.chip.damson d / 2048
  [w + 1, w + 2].foldl (fun s k => if sectorBlank (getFlash s d) (journalSector k) then s else journalErase s d k) s

/-- The write position moves on by one; on entering a sector the second sector after it is erased (R147). -/
def leaseAdvance (s : State) (d : Fin 2) : State :=
  let w := (wposOf s.chip.damson d + 1) % journalPositions
  let s := { s with chip := setDamson s.chip fun m => setWpos m d w }
  if w % 2048 = 0 then journalErase s d (w / 2048 + 2) else s

/-- Set LEASE_BLOCKED, with EV_LEASE_BLOCKED for a device (R145, R426). The reservation is tried again a second later. -/
def leaseBlock (ch : Chip) (d : Nat) : Chip :=
  let drop (x : Xspi) : Xspi := { x with queue := x.queue.filter (·.tag != .lease) }
  let ch := { ch with xspi0 := drop ch.xspi0, xspi1 := drop ch.xspi1 }
  event (setDamson ch fun m => { m with blocked := true, triedAt := nowUs ch }) 0x0403 1 none [(d, 1)]

def badOf (r : Reservation) (d : Fin 2) : Nat := if d = 0 then r.bad0 else r.bad1
def addBad (r : Reservation) (d : Fin 2) : Reservation :=
  if d = 0 then { r with bad0 := r.bad0 + 1 } else { r with bad1 := r.bad1 + 1 }

/-- Count a failed position of the reservation; the eighth blocks it (R145). A retry that fails again reports again (DESIGN
CHOICE, log entry 142). -/
def leaseBad (s : State) (d : Fin 2) : State :=
  match s.chip.damson.res with
  | none => s
  | some r =>
    let r := addBad r d
    let s := { s with chip := setDamson s.chip fun m => { m with res := some r } }
    if badOf r d < 8 then s
    else { s with chip := leaseBlock (raise s.chip (srcSub 7) fkLeaseWrite (ctxPlain d.val)) d.val }

/-- Request the program of the record at the next blank position of a device; a position that is not blank is passed over
as a failed one (R145). -/
def leasePush : Nat → State → Fin 2 → State
  | 0, s, _ => s
  | n + 1, s, d =>
    match s.chip.damson.res with
    | none => s
    | some r =>
      if 8 ≤ badOf r d then s
      else
        let w := wposOf s.chip.damson d
        if leaseBlank (getFlash s d) w then
          { s with chip := xsPush s.chip d { owner := .damson, tag := .lease, addr := journalBase + 32 * w
                                             bytes := some (leaseRecord r s.chip.boots) } }
        else leasePush n (leaseBad (leaseAdvance s d) d) d

/-- Operations of the lease record are under way. -/
def leaseBusy (ch : Chip) : Bool := (xsOps ch.xspi0).any (·.tag = .lease) || (xsOps ch.xspi1).any (·.tag = .lease)

/-- Write the reservation's record to both devices. While PFAIL_N is asserted it is not started (R151); while a device is
out of service it is blocked without FK_LEASE_WRITE (R426). -/
def leaseTry (s : State) : State :=
  match s.chip.damson.res with
  | none => s
  | some r =>
    let ch := s.chip
    if ch.pfail || leaseBusy ch then s
    else if !(ch.xspi0.inService && ch.xspi1.inService) then
      let d := if ch.xspi0.inService then 1 else 0
      if ch.damson.blocked then { s with chip := setDamson ch fun m => { m with triedAt := nowUs ch } }
      else { s with chip := leaseBlock ch d }
    else
      let r := { r with ok0 := false, ok1 := false, bad0 := 0, bad1 := 0 }
      let s := { s with chip := setDamson ch fun m => { m with res := some r, triedAt := nowUs ch } }
      leasePush 9 (leasePush 9 s 0) 1

/-- Start a journal generation (R150): JOURNAL_GEN advances, or the counter is exhausted (R152). -/
def startGeneration (s : State) : State × Option Nat :=
  let c := s.otp.journalGen
  if 64 ≤ c then
    ({ s with chip := event (setDamson s.chip fun m => { m with exhausted := true }) 0x0407 1 none [] }, none)
  else
    let ch := event s.chip 0x0405 0 none [(c + 1, 7)]
    let ch := if c + 1 = 56 then event ch 0x0406 1 none [(c + 1, 7)] else ch
    ({ s with otp := { s.otp with journalGen := c + 1 }, chip := ch }, some (c * 2 ^ 38))

/-- JOURNAL_GEN is programmed up to and including bit `g` (R149). -/
def startGenerationAt (s : State) (g : Nat) : State × Bool :=
  let c := s.otp.journalGen
  if 64 ≤ g then ({ s with chip := event (setDamson s.chip fun m => { m with exhausted := true }) 0x0407 1 none [] }, false)
  else
    let ch := event s.chip 0x0405 0 none [(g + 1, 7)]
    let ch := if c < 56 && 56 ≤ g + 1 then event ch 0x0406 1 none [(g + 1, 7)] else ch
    ({ s with otp := { s.otp with journalGen := g + 1 }, chip := ch }, true)

/-- The generation of a resume lease is in OTP, or is recorded there now; false when the counter is exhausted (R149). -/
def coverLease (s : State) (lease : Nat) : State × Bool :=
  if s.otp.journalGen ≤ lease / 2 ^ 38 then startGenerationAt s (lease / 2 ^ 38) else (s, true)

/-- Reserve the lease after `highest` (R139, R150). A resume keeps REASON 0x02; else REASON 0x04 takes the place of `reason`
when a generation starts (log entry 135). While PFAIL_N is asserted no reservation starts (R151). -/
def reserveNext (s : State) (reason slot : Nat) (grouped : Bool) (prev : Nat) : State :=
  let m := s.chip.damson
  if m.exhausted || m.res.isSome || m.stopped || s.chip.pfail then s
  else
    let put (s : State) (lease reason : Nat) : State :=
      let r : Reservation := { lease := lease, reason := reason, prev := prev, slot := slot, grouped := grouped }
      leaseTry { s with chip := setDamson s.chip fun m => { m with res := some r } }
    match m.highest with
    | some h =>
      if reason = 2 then
        match coverLease s (h + 1) with
        | (s, true) => put s (h + 1) 2
        | (s, false) => s
      else if (h + 1) / 2 ^ 38 = h / 2 ^ 38 && (h + 1) / 2 ^ 38 < s.otp.journalGen then put s (h + 1) reason
      else match startGeneration s with
        | (s, some l) => put s l 4
        | (s, none) => s
    | none => match startGeneration s with
        | (s, some l) => put s l reason
        | (s, none) => s

/-- Start the reservation of the resume that a HOST_RST_N has asked for (R149), or of a slot change that waits (R138). -/
def startChange (s : State) : State :=
  let m := s.chip.damson
  if s.chip.pfail then s
  else if m.resume && m.res.isNone then
    match m.highest with
    | some h => reserveNext { s with chip := setDamson s.chip fun m => { m with resume := false } } 2 m.slot m.grouped h
    | none => s
  else
    match m.change with
    | some (slot, grouped) => reserveNext s 3 slot grouped (m.highest.getD 0)
    | none => s

/-- From sub-lease 0x8000 on the next lease is reserved (R140). -/
def startNext (s : State) : State :=
  let m := s.chip.damson
  if 0x8000 < m.sub && m.current.isSome && m.next.isNone && m.change.isNone && !m.resume then
    reserveNext s 1 m.slot m.grouped (m.highest.getD 0)
  else s

/-- Change the IV slot (R138): the change waits for a reservation already under way. -/
def slotChange (s : State) (slot : Nat) (grouped : Bool) : State :=
  startChange { s with chip := setDamson s.chip fun m => { m with change := some (slot, grouped) } }

/-- The resume lease and PREV; none when the counter is exhausted. -/
def resumeLease (s : State) (jmax : Option Nat) : State × Option (Nat × Nat) :=
  let shadow := if s.aon.present && s.aon.shadowValid then some s.aon.shadow else none
  let base := match shadow, jmax with
    | some a, some j => some (max a j)
    | some a, none => some a
    | none, j => j
  match base with
  | none => (match startGeneration s with
    | (s, some l) => (s, some (l, 0))
    | (s, none) => (s, none))
  | some b =>
    match coverLease s (b + 1) with
    | (s, true) => (s, some (b + 1, b))
    | (s, false) => (s, none)

/-- The resume reservation of a boot, from the highest LEASE that its recovery read (R149). -/
def resumeAfterBoot (s : State) (jmax : Option Nat) : State :=
  let s := { s with chip := setDamson s.chip fun m => { m with recover := none } }
  match resumeLease s jmax with
  | (s, none) => s
  | (s, some (lease, prev)) =>
    let m := s.chip.damson
    let res : Reservation := { lease := lease, reason := 2, prev := prev, slot := m.slot, grouped := m.grouped }
    leaseTry { s with chip := setDamson s.chip fun m => { m with res := some res } }

/-- RESULT of a slot change's command at its end (R285, R306, R309). -/
def slotResult (ch : Chip) (opcode lease : Nat) : Nat :=
  if opcode = 0x0402 then rb 0x10 2 ch.damson.slot ||| rb 0x18 6 lease
  else if opcode = 0x0802 then
    rb 0x10 4 (gdEpoch ch.fw.desc) ||| rb 0x14 2 ch.damson.slot ||| rb 0x16 1 ch.fw.matchBits |||
      rb 0x18 6 lease
  else 0

/-- The job's RESULT from byte 0x12 on: that of the command, two bytes higher, for the opcode stands first (R285; DEDUCED, log
entry 78). -/
def slotJobResult (ch : Chip) (opcode lease : Nat) : Nat :=
  if opcode = 0x0402 then field 0 16 ch.damson.slot ||| field 16 48 lease
  else if opcode = 0x0802 then
    field 0 32 (gdEpoch ch.fw.desc) ||| field 32 16 ch.damson.slot ||| field 48 8 ch.fw.matchBits ||| field 64 48 lease
  else 0

/-- A program of the lease record has ended on a device (R145). -/
def leaseDone (s : State) (d : Fin 2) (ok : Bool) : State :=
  match s.chip.damson.res with
  | none => s
  | some r =>
    let s := leaseAdvance s d
    if ok then
      let r := if d = 0 then { r with ok0 := true } else { r with ok1 := true }
      { s with chip := setDamson s.chip fun m => { m with res := some r } }
    else leasePush 9 (leaseBad s d) d

end Sys2Proof.Machine
end

