-- ==== Sys2Proof/Machine/Counters.lean ====
section
/-! DEFINITION. Sub-leases and the end of reservations (R138 to R149, 06_counters.md). -/

namespace Sys2Proof.Machine

/-- The sub-lease that would be handed out next: lease, slot and SUB (R141). -/
def nextSub (m : Damson) : Option (Nat × Nat × Nat) :=
  match m.current with
  | some (l, slot) =>
    if m.sub < 65536 then some (l, slot, m.sub)
    else (match m.next with
      | some (l, slot) => some (l, slot, 0)
      | none => none)
  | none => none

/-- Damson after it has handed out that sub-lease. -/
def tookSub (m : Damson) : Damson :=
  if m.sub < 65536 then { m with sub := m.sub + 1 } else { m with current := m.next, next := none, sub := 1 }

/-- The unfenced clusters that lack CUR, or NEXT. -/
def lacksCur (ch : Chip) : List Nat := (List.range 64).filter fun c => !clusterDown ch c && (getCluster ch c).cur.isNone
def lacksNext (ch : Chip) : List Nat := (List.range 64).filter fun c => !clusterDown ch c && (getCluster ch c).nxt.isNone

/-- The register that is filled next (R141): after a reset or a slot change every CUR before any NEXT, else the registers of
the lowest cluster that asks. -/
def refillTarget (ch : Chip) : Option (Nat × Bool) :=
  let c := (lacksCur ch).head?
  let n := (lacksNext ch).head?
  match c, n with
  | some a, some b => if ch.damson.filling || a ≤ b then some (a, true) else some (b, false)
  | some a, none => some (a, true)
  | none, some b => some (b, false)
  | none, none => none

/-- The first fill after a reset or a slot change is over. -/
def fillOver (ch : Chip) : Chip :=
  if (lacksCur ch).isEmpty && (lacksNext ch).isEmpty then setDamson ch fun m => { m with filling := false } else ch

/-- Sub-leases not yet handed out in the reserved leases (Table 12.14). -/
def subLeft (m : Damson) : Nat :=
  (if m.current.isSome then 65536 - m.sub else 0) + (if m.next.isSome then 65536 else 0)

/-- Hand out one sub-lease; from sub-lease 0x8000 on the next lease is reserved (R140). -/
def refillOne (s : State) : State :=
  match refillTarget s.chip, nextSub s.chip.damson with
  | some (c, isCur), some (lease, slot, sub) =>
    let l : SubLease := { lease := lease, sub := sub, slot := slot, off := 0 }
    let ch := modCluster s.chip c fun cl => if isCur then { cl with cur := some l } else { cl with nxt := some l }
    startNext { s with chip := fillOver (setDamson ch tookSub) }
  | _, _ => s

/-- No sub-lease is handed out: under HALT (R143), and until the record of a resume is verified (R149). -/
def refillHeld (m : Damson) : Bool :=
  m.stopped || m.resume || match m.res with | some r => r.reason = 2 | none => false

/-- SUBLEASE_REFILL. -/
def execSubleaseRefill (s : State) : Out := onState s fun s => if refillHeld s.chip.damson then s else refillOne s

/-- Every sub-lease that a cluster holds is revoked (R138 step 2, R143). -/
def revokeAll (ch : Chip) : Chip :=
  setDamson { ch with clusters := Tbl.mapVals {} (fun _ cl => { cl with cur := none, nxt := none }) ch.clusters } fun m =>
    { m with filling := true }

/-- The group is COMMITTED once the first lease under the member slot is verified (R306, R431). -/
def settleGroup (ch : Chip) : Chip :=
  if ch.fw.group = 1 && ch.damson.grouped && ch.damson.slot = gdSlot ch.fw.desc then
    { ch with fw := { ch.fw with group := 2 } }
  else ch

/-- A slot change has taken effect: the command that waits for it, or its job, ends (R285, R306, R309). -/
def slotChanged (ch : Chip) (lease : Nat) : Chip :=
  let ch := match ch.quince.exec with
    | some x => (match x.wait with
      | .slotChange _ _ =>
        let op := cOpcode (Tbl.get ({} : MbSlot) (getMb ch x.mb).slots x.slot).cmd
        finishExec ch (okWith (slotResult ch op lease))
      | _ => ch)
    | none => ch
  match ch.fw.slotJob with
  | some (h, op) =>
    jobDue { ch with fw := { ch.fw with slotJob := none } } h stOk 0 (slotJobResult ch op lease)
  | none => ch

/-- A verified reservation (R139): the always-on shadow, then the highest reserved lease; a slot change revokes every
sub-lease and takes the new slot, a resume starts at the new lease, an advance waits as the next lease. -/
def leaseVerified (s : State) (r : Reservation) : State :=
  let aon := s.aon
  let valid := aon.shadowValid
  let aon := if aon.present then
      { aon with shadow := r.lease, shadowInv := 2 ^ 44 - 1 - r.lease, shadowValid := true } else aon
  let ch := s.chip
  let ch := if ch.damson.blocked then event (setDamson ch fun m => { m with blocked := false }) 0x0404 0 none [] else ch
  let ch := setDamson ch fun m => { m with highest := some r.lease, res := none }
  let m := ch.damson
  let isChange := decide (m.change = some (r.slot, r.grouped))
  let ch :=
    if isChange then
      let fresh (m : Damson) : Damson :=
        { m with current := some (r.lease, r.slot), next := none, sub := 0, slot := r.slot, grouped := r.grouped, change := none }
      slotChanged (settleGroup (revokeAll (setDamson ch fresh))) r.lease
    else if r.reason = 2 then
      let ch := event ch 0x0401 0 none [(r.lease, 44), (r.prev, 44), (if valid then 1 else 0, 1)]
      settleGroup (setDamson ch fun m => { m with current := some (r.lease, r.slot), next := none, sub := 0 })
    else if m.current.isNone then setDamson ch fun m => { m with current := some (r.lease, r.slot), sub := 0 }
    else setDamson ch fun m => { m with next := some (r.lease, r.slot) }
  startChange { s with aon := aon, chip := ch }

/-- LEASE_RESERVED, due when the record is verified on both devices. -/
def execLeaseReserved (s : State) : Out :=
  onState s fun s =>
    match s.chip.damson.res with
    | some r => if r.ok0 && r.ok1 then leaseVerified s r else s
    | none => s

/-- LEASE_RETRY, due one second after the last try while LEASE_BLOCKED is set. -/
def execLeaseRetry (s : State) : Out :=
  onState s fun s =>
    let m := s.chip.damson
    if m.blocked && m.res.isSome && m.triedAt + 1000000 ≤ nowUs s.chip then leaseTry s else s

end Sys2Proof.Machine
end

