-- ==== Sys2Proof/Machine/Generations.lean ====
section
/-! DEFINITION. Configuration generations (R221 to R223, 09_change.md) and the rewrite of DISPATCH_MAP (R87,
04_scheduling.md). -/

namespace Sys2Proof.Machine

/-- A change of the tables of Table 9.5 as one new generation (R222); made only while LIVE2 is clear. -/
def newGeneration (ch : Chip) (f : Cfg → Cfg) : Chip :=
  { ch with cfgOld := ch.cfg, oldGen := ch.admitGen, cfg := f ch.cfg, admitGen := (ch.admitGen + 1) % 65536, live2 := true }

/-- Line requests of a lane that are stamped with a generation. -/
def laneUses (gen : Nat) (l : Lane) : Bool := (l.mq ++ l.bg ++ l.stuck ++ l.reads).any fun o => o.gen = gen

/-- A stream or line request stamped with a generation remains (R223). -/
def genUsed (ch : Chip) (gen : Nat) : Bool :=
  (ch.ports.any fun e => e.2.reqs.any fun q => q.gen = gen) ||
    ch.lines.any fun e => laneUses gen e.2.lane0 || laneUses gen e.2.lane1

/-- Ports that a configuration maps to a cluster. -/
def portsMapped (c : Cfg) (cl : Nat) : Nat := ((List.range 64).filter fun p => homeOf c p = cl).length

/-- The unfenced cluster with the fewest ports, then the most active slices, then the lowest index (R87). -/
def rewriteTarget (ch : Chip) (c : Cfg) : Option Nat :=
  ((List.range 64).filter fun k => !clusterDown ch k).foldl (fun best k =>
    match best with
    | none => some k
    | some b =>
      let nk := portsMapped c k
      let nb := portsMapped c b
      if nk < nb || (nk = nb && activeStream ch b < activeStream ch k) then some k else some b) none

/-- Move every port whose home cluster is fenced. -/
def rewriteMap (ch : Chip) (c : Cfg) : Cfg :=
  (List.range 64).foldl (fun c p =>
    if clusterDown ch (homeOf c p) then
      (match rewriteTarget ch c with
      | some k => setCfgReg c (0x410 + 0x20 * p) (BitVec.ofNat 64 k)
      | none => c)
    else c) c

/-- DISPATCH_REWRITE, due after a cluster fence. While two generations are live it waits; rewrites due together are one
generation. A sum of CL0_RATE that the fence leaves too high is recorded (R374). -/
def execDispatchRewrite (s : State) : Out :=
  onChip s fun ch =>
    if ch.quince.rewrite.isEmpty || ch.live2 || halted ch || ch.fw.handover then ch
    else
      let ch := { ch with quince := { ch.quince with rewrite := [] } }
      if (List.range 64).any fun p => clusterDown ch (homeOf ch.cfg p) then
        checkOvercommit (newGeneration ch (rewriteMap ch))
      else ch

end Sys2Proof.Machine
end

