-- ==== Sys2Proof/Machine/Persist.lean ====
section
/-! DEFINITION. What the end of a flash operation continues (19_persistence.md): the rings (R424, R428), the recorder's
writes (R414) and the log clear (R418), staging (R320, R321), mirror recovery (R427), and a device that leaves service
(R421, R425, R426). -/

namespace Sys2Proof.Machine

/-! ### The rings (R424) -/

/-- An erase intent record (Table 19.4). -/
def intentRecord (kind addr seq boots : Nat) : List Byte :=
  let body := [0x44, 0x45, 0x52, 0x49] ++ toLE 1 kind ++ toLE 1 (regionCode addr) ++ zeros 2 ++ toLE 4 (addr / 0x10000) ++
    toLE 4 seq ++ toLE 2 boots ++ zeros 10
  body ++ toLE 4 (crc32 body).toNat

def setRingPos (x : Xspi) (r : FlashRing) (p : Nat) : Xspi :=
  match r with
  | .boot => { x with bootPos := p }
  | .group => { x with groupPos := p }
  | .intent => { x with intentPos := p }

/-- The bytes an operation programs now, with their address: those of the operation, at its place in a ring, or the intent or
completion record of an erase. None while it erases a sector. -/
def opProgram (ch : Chip) (d : Fin 2) (op : FlashOp) : Option (Nat × List Byte) :=
  let x := getXspi ch d
  if (eraseAt x op).isSome then none
  else
    let addr := match ringOf op with | some r => (ringPos x r).1 | none => op.addr
    match op.bytes with
    | some bs => some (addr, bs)
    | none => some (addr, intentRecord (if op.phase = .completion then 2 else 1) op.addr (x.intentSeq + 1) ch.boots)

/-- A ring position has been used: the next one (R424). -/
def ringAdvance (r : FlashRing) (x : Xspi) : Xspi :=
  let (_, p, n) := ringPos x r
  let q := (p + 1) % n
  let x := setRingPos x r q
  if q % (n / 2) = 0 then { x with erased := x.erased.filter (· != r) } else x

/-! ### Staging jobs and the recorder's writes -/

/-- Set the state of an image slot (TARGET 1) or settings copy (TARGET 2). -/
def modImgOf (fw : Fw) (target which : Nat) (f : Img → Img) : Fw :=
  if target = 1 then (if which = 0 then { fw with imgA := f fw.imgA } else { fw with imgB := f fw.imgB })
  else (if which = 0 then { fw with set0 := f fw.set0 } else { fw with set1 := f fw.set1 })
def setImgOf (fw : Fw) (target which : Nat) (st : ImgState) : Fw := modImgOf fw target which fun i => { i with st := st }

/-- An operation belongs to a staging job. -/
def stageOp (j : StageJob) (o : FlashOp) : Bool :=
  o.tag = (if j.writing then .stagePage else .stageErase) && j.lo ≤ o.addr && o.addr < j.hi

/-- Drop the waiting operations of a staging job. -/
def dropStageOps (ch : Chip) (j : StageJob) : Chip :=
  let drop (x : Xspi) : Xspi := { x with queue := x.queue.filter fun o => !stageOp j o }
  { ch with xspi0 := drop ch.xspi0, xspi1 := drop ch.xspi1 }

/-- A staging job is given up: it ends with ST_ABORTED and its target is INVALID (R321). -/
def stageJobFail (ch : Chip) (g : Stage) (j : StageJob) : Chip :=
  let ch := dropStageOps ch j
  let fw := match ch.fw.stage with
    | some g => { ch.fw with stage := some { g with jobs := g.jobs.filter (· != j) } }
    | none => ch.fw
  jobDue { ch with fw := setImgOf fw g.target g.which .invalid } j.handle stAborted 0 0

/-- Every staging job is given up (R321, R446). -/
def stageFail (ch : Chip) : Chip :=
  match ch.fw.stage with
  | none => ch
  | some g => g.jobs.foldl (fun ch j => stageJobFail ch g j) ch

/-- One operation of a staging job is done (R320, R321). -/
def stageOpDone (ch : Chip) (op : FlashOp) (ok : Bool) : Chip :=
  match ch.fw.stage with
  | none => ch
  | some g =>
    match takeFirst (fun j : StageJob => stageOp j op) g.jobs with
    | none => ch
    | some (j, rest) =>
      if !ok then stageJobFail ch g j
      else if (xsOps ch.xspi0 ++ xsOps ch.xspi1).any (stageOp j) then ch
      else jobDue { ch with fw := { ch.fw with stage := some { g with jobs := rest } } } j.handle stOk 0 0

/-- The Pips of step 4 of a clear are written: recording goes on and FULL is clear (R418 step 5). -/
def clearWritten (r : Recorder) : Recorder :=
  match r.clearing with
  | some (n, 3) => if r.left ≤ r.behind then { r with clearing := some (n, 4), full := false, behind := 0 } else r
  | _ => r

/-- The Pip under way is done on every device: the write position moves on, and the Pip with it unless a device failed to
take it (R414): that position is spoiled. No position follows the last, whose EV_LOG_FULL is not written again (R416). On
entering a sector the next one is kept erased. -/
def recAdvance (s : State) : State :=
  let r := s.chip.recorder
  if r.left = 0 || r.paused || recBusy s.chip then s
  else
    let w := r.wpos + 1
    let r := { r with wpos := w, left := if r.spoil && w < logSize then r.left else r.left - 1, spoil := false
                      spoiled := if r.spoil then r.wpos :: r.spoiled else r.spoiled }
    let s := { s with chip := { s.chip with recorder := clearWritten r } }
    let s := if w % 2048 = 0 && w + 2048 < logSize then
        let addr := logBase + 32 * (w + 2048)
        let push (s : State) (d : Fin 2) : State :=
          if recDevice s.chip d && !sectorBlank (getFlash s d) addr then
            { s with chip := xsPush s.chip d { owner := .recorder, tag := .logErase, addr := addr, bytes := none } }
          else s
        push (push s 0) 1
      else s
    { s with chip := recKick s.chip }

/-! ### Log clear (R418) -/

/-- The Pips of every valid OTP record, in slot order (R397). -/
def otpPips (s : State) : List Pip :=
  s.otp.log.flatMap fun o => match o with
    | some r => (List.range 4).map fun n =>
        mkPip (0x0D04 + n) 0 (if s.chip.pfail then 4 else 0) s.chip.boots (nowUs s.chip) (fld r (128 * n) 128)
    | none => []

/-- Log sectors after the write sector that are not blank on a device that the recorder writes. -/
def dirtyLog (s : State) : List Nat :=
  let cur := s.chip.recorder.wpos / 2048
  let of (d : Fin 2) : List Nat :=
    if recDevice s.chip d then
      ((getFlash s d).map fun e => e.1 / 256).filter fun k => 0x400 ≤ k && k < 0x700 && 0x400 + cur < k
    else []
  (of 0 ++ of 1).eraseDups

/-- Erase one log sector on every device that the recorder writes. -/
def logErase (s : State) (sector : Nat) : State :=
  let push (s : State) (d : Fin 2) : State :=
    if recDevice s.chip d then
      { s with chip := xsPush s.chip d { owner := .recorder, tag := .logErase, addr := 0x10000 * sector, bytes := none } }
    else s
  push (push s 0) 1

/-- A log erase is under way. -/
def logErasing (ch : Chip) : Bool := (xsOps ch.xspi0).any (·.tag = .logErase) || (xsOps ch.xspi1).any (·.tag = .logErase)

/-- Take the next step of a clear job whose turn it is. -/
def clearStep (s : State) : State :=
  let r := s.chip.recorder
  match r.clearing with
  | none => s
  | some (n, 1) =>
    if r.handed.isEmpty && !r.waiting then
      logErase { s with chip := { s.chip with recorder := { r with clearing := some (n, 2), paused := true, noted := r.wpos } } }
        0x400
    else s
  | some (n, 2) =>
    if logErasing s.chip then s
    else
      let cleared := mkPip 0x0005 0 (if s.chip.pfail then 4 else 0) s.chip.boots (nowUs s.chip)
        (packFields [(n, 16), (r.noted, 32)])
      let pips := cleared :: otpPips s ++ r.handed
      let r := { r with clearing := some (n, 3), paused := false, wpos := 0, spoiled := [], handed := pips
                        left := pips.length, behind := r.handed.length }
      { s with chip := recKick { s.chip with recorder := r } }
  | some (_, 3) => s
  | some (_, _) =>
    if logErasing s.chip then s
    else
      match (dirtyLog s).min? with
      | some k => logErase s k
      | none =>
        let ch := { s.chip with recorder := { r with clearing := none } }
        match ch.fw.clearJob with
        | some h => { s with chip := jobDue { ch with fw := { ch.fw with clearJob := none } } h stOk 0 0 }
        | none => { s with chip := ch }

/-! ### Mirror recovery (R427) -/

/-- The directory record of a device (Table 19.3). -/
def directoryRecord (d : Nat) : List Byte :=
  let body := [0x44, 0x44, 0x49, 0x52] ++ toLE 1 1 ++ toLE 1 d ++ zeros 2 ++ deviceIdBytes ++ zeros 36
  body ++ toLE 4 (crc32 body).toNat

/-- How a directory reads: valid, and with this DEVICE_ID (R425). -/
def directoryValid (f : Tbl FlitData) : Bool :=
  let b := flashRead f 0 64
  b.take 4 = [0x44, 0x44, 0x49, 0x52] && b.getD 4 0 = 1 && (crc32 (b.take 60)).toNat = ofLE (b.drop 60)
def directoryMine (f : Tbl FlitData) : Bool := directoryValid f && (flashRead f 8 16) = deviceIdBytes

/-- Sectors that recovery copies: those of the regions of Table 19.2, the directory and the journal apart. -/
def mirrored (k : Nat) : Bool :=
  (1 ≤ k && k < 7) || (0x10 ≤ k && k < 0xB0) || (0x100 ≤ k && k < 0x300) || (0x400 ≤ k && k < 0x700)

/-- Sectors from `k` on that differ between two devices. -/
def diffSectors (f g : Tbl FlitData) (k : Nat) : List Nat :=
  (((f ++ g).filter fun e => flashPage f e.1 != flashPage g e.1).map (·.1 / 256)).filter fun j => k ≤ j && mirrored j

/-- The journal of a device holds a valid record. -/
def journalUsed (f : Tbl FlitData) : Bool :=
  f.any fun e => 0x30000 ≤ e.1 && e.1 < 0x40000 && (List.range 8).any fun i => (leaseRead f (8 * (e.1 - 0x30000) + i)).isSome

/-- Sectors of the journal that are not blank. -/
def journalDirty (f : Tbl FlitData) : List Nat := (f.map (·.1 / 256)).filter fun k => 0x300 ≤ k && k < 0x400

/-- The latest valid intent ring record of a device: sequence, kind, sector, position (R424, R429). -/
def intentLatest (f : Tbl FlitData) : Option (Nat × Nat × Nat × Nat) :=
  let pages := f.filter fun e => 0x100 ≤ e.1 && e.1 < 0x300
  pages.foldl (fun best e =>
    (List.range 8).foldl (fun best i =>
      let pos := 8 * (e.1 - 0x100) + i
      let b := flashRead f (intentBase + 32 * pos) 32
      let n := ofLE b
      if b.take 4 = [0x44, 0x45, 0x52, 0x49] && (crc32 (b.take 28)).toNat = bytesAt n 28 4 then
        match best with
        | some (q, _, _, _) => if q < bytesAt n 12 4 then some (bytesAt n 12 4, bytesAt n 4 1, bytesAt n 8 4, pos) else best
        | none => some (bytesAt n 12 4, bytesAt n 4 1, bytesAt n 8 4, pos)
      else best) best) none

/-- The latest valid record of a ring of 32- or 512-byte records: sequence, position, bytes (R424). -/
def ringLatest (f : Tbl FlitData) (base size : Nat) (magic : List Byte) : Option (Nat × Nat × List Byte) :=
  let pages := f.filter fun e => base / 256 ≤ e.1 && e.1 < base / 256 + 512
  let starts := ((pages.map fun e => (e.1 - base / 256) * 256 / size).eraseDups).flatMap fun p =>
    if size < 256 then (List.range (256 / size)).map fun i => p / (256 / size) * (256 / size) + i else [p]
  starts.foldl (fun best pos =>
    let b := flashRead f (base + size * pos) size
    let seq := ofLE ((b.drop 8).take 4)
    if b.take 4 = magic && (crc32 (b.take (size - 4))).toNat = ofLE (b.drop (size - 4)) then
      match best with
      | some (q, _, _) => if q < seq then some (seq, pos, b) else best
      | none => some (seq, pos, b)
    else best) none

def bootLatest (f : Tbl FlitData) : Option (Nat × Nat × List Byte) := ringLatest f bootBase 32 [0x44, 0x42, 0x4F, 0x54]
def groupLatest (f : Tbl FlitData) : Option (Nat × Nat × List Byte) := ringLatest f groupBase 512 [0x44, 0x47, 0x52, 0x50]

/-- The ring positions and the intent sequence that a device's contents give. The sector that a ring enters next is erased
first, whatever it holds; a ring with no record begins in a blank sector as it is (R424, R425; DEDUCED, log entry 164). -/
def ringsFrom (f : Tbl FlitData) (x : Xspi) : Xspi :=
  let fresh (r : FlashRing) (used : Bool) (base : Nat) : List FlashRing := if !used && sectorBlank f base then [r] else []
  let erased := fresh .intent (intentLatest f).isSome intentBase ++ fresh .boot (bootLatest f).isSome bootBase ++
    fresh .group (groupLatest f).isSome groupBase
  let x := { x with erased := erased }
  let x := match intentLatest f with
    | some (q, _, _, p) => { x with intentSeq := q, intentPos := (p + 1) % 4096 }
    | none => { x with intentSeq := 0, intentPos := 0 }
  let x := match bootLatest f with | some (_, p, _) => { x with bootPos := (p + 1) % 4096 } | none => { x with bootPos := 0 }
  match groupLatest f with | some (_, p, _) => { x with groupPos := (p + 1) % 256 } | none => { x with groupPos := 0 }

/-- The recovery of a device has ended but for its return to service. -/
def recoveryEnd : Nat := 0x800

/-- The sectors from `k` on that recovery works on, in the order of Table 19.2: those that differ, and between the images and
the log those of a journal that holds no valid record (R427). -/
def recoverSectors (src tgt : Tbl FlitData) (k : Nat) : List Nat :=
  diffSectors src tgt k ++ (if journalUsed tgt then [] else (journalDirty tgt).filter (k ≤ ·))

/-- Take the next step of a device's mirror recovery (R427): the next sector is erased and, outside the journal, programmed;
the directory comes last. -/
def recoveryStep (s : State) (d : Fin 2) : State :=
  let x := getXspi s.chip d
  match x.recovery with
  | none => s
  | some k =>
    if s.chip.pfail || k = recoveryEnd || (xsOps x).any (·.tag = .mirror) then s
    else
      let src := getFlash s (if d = 0 then 1 else 0)
      let tgt := getFlash s d
      let erase (k : Nat) : FlashOp := { owner := .quince, tag := .mirror, addr := 0x10000 * k, bytes := none }
      let x := if 7 ≤ k then x else ringsFrom tgt x
      match (recoverSectors src tgt k).min? with
      | some j =>
        let pages := (src.filter fun e => e.1 / 256 = j && mirrored j).map fun e : Nat × FlitData =>
          ({ owner := .quince, tag := .mirror, addr := 256 * e.1, bytes := some (bvBytes 256 e.2) } : FlashOp)
        let ops := (if sectorBlank tgt (0x10000 * j) then [] else [erase j]) ++ pages
        { s with chip := ops.foldl (fun ch op => xsPush ch d op) (setXspi s.chip d { x with recovery := some j }) }
      | none =>
        let x := if k < 7 then ringsFrom tgt x else x
        if directoryMine tgt then { s with chip := setXspi s.chip d { x with recovery := some recoveryEnd } }
        else
          let ops := (if sectorBlank tgt 0 then [] else [erase 0]) ++
            [{ owner := .quince, tag := .mirror, addr := 0, bytes := some (directoryRecord d.val) }]
          { s with chip := ops.foldl (fun ch op => xsPush ch d op) (setXspi s.chip d { x with recovery := some 0x700 }) }

/-! ### The vault erase (R432) -/

/-- Vault sectors that are not blank on a device. -/
def vaultDirty (f : Tbl FlitData) : List Nat := (f.map (·.1 / 256)).filter fun k => 0x30 ≤ k && k < 0xB0

/-- Request the erase of a vault written under a killed secret, one sector of each device at a time; at its end a boot
record names the secret in use. -/
def vaultEraseStep (s : State) : State :=
  let ch := s.chip
  let busy (x : Xspi) := (xsOps x).any (·.tag = .vaultErase)
  let alone := !ch.xspi0.inService && !ch.xspi1.inService
  if !ch.fw.vaultErase || ch.dstate = 0 || ch.pfail || alone || busy ch.xspi0 || busy ch.xspi1 then s
  else
    let push (s : State) (d : Fin 2) : State :=
      if !(getXspi s.chip d).inService then s
      else match (vaultDirty (getFlash s d)).min? with
        | some k =>
          { s with chip := xsPush s.chip d { owner := .quince, tag := .vaultErase, addr := 0x10000 * k, bytes := none } }
        | none => s
    let s := push (push s 0) 1
    if busy s.chip.xspi0 || busy s.chip.xspi1 then s
    else
      let fw := { s.chip.fw with vaultErase := false, vaultGen := s.chip.keys.secretGen, vaultPos := 0, vaultSeq := 0 }
      { s with chip := writeBoot { s.chip with fw := fw } }

/-! ### The end of an operation -/

/-- What a failed program leaves at its bytes: a free value that clears no bit the program did not ask for (log entry
7). -/
def tornBytes (ch : Chip) (bs : List Byte) : List Byte :=
  bs.zipIdx.map fun b => b.1 ||| BitVec.ofNat 8 ((Config.freeWord (ch.free + b.2)).toNat % 256)

/-- A verified group record takes effect (R306, R309). A slot change that is needed starts, and whoever waits then waits for
that (`hold`, told whether the slot is a group's); else it ends with the lease (`done`). -/
def groupTakes (s : State) (desc : List Byte) (leave : Bool) (hold : Bool → Chip → Chip) (done : Nat → Chip → Chip) : State :=
  let ch := s.chip
  let m := ch.damson
  if leave then
    let need := m.slot != m.localSlot
    let ch := if need then ch else setDamson ch fun m => { m with grouped := false }
    if need && !m.exhausted then slotChange { s with chip := hold false ch } m.localSlot false
    else { s with chip := done (m.highest.getD 0) ch }
  else
    let need := m.slot != gdSlot desc
    let fw := { ch.fw with desc := desc, hasPrev := decide (0 < gdEpoch desc), part0 := none, part1 := none
                           group := if need then 1 else 2 }
    let ch := setMatch { ch with fw := fw }
    if need then slotChange { s with chip := hold true ch } (gdSlot desc) true
    else { s with chip := done (m.highest.getD 0) (setDamson ch fun m => { m with grouped := true }) }

/-- The job of a group command goes on once its record is verified. -/
def groupJobGoes (s : State) : State :=
  match s.chip.fw.groupJob with
  | none => s
  | some (h, op, desc, leave) =>
    groupTakes { s with chip := { s.chip with fw := { s.chip.fw with groupJob := none } } } desc leave
      (fun _ ch => { ch with fw := { ch.fw with slotJob := some (h, op) } })
      (fun lease ch => jobDue ch h stOk 0 (slotJobResult ch op lease))

/-- The group record is verified on every device in service: the job or the command that waits for it goes on (R306, R309). -/
def groupWritten (s : State) : State :=
  let busy (x : Xspi) := (xsOps x).any (·.tag = .group)
  if busy s.chip.xspi0 || busy s.chip.xspi1 then s
  else
    let s := groupJobGoes s
    match s.chip.quince.exec with
    | none => s
    | some x =>
      match x.wait with
      | .group desc leave limit =>
        groupTakes s desc leave
          (fun grouped ch => { ch with quince := { ch.quince with exec := some { x with wait := .slotChange limit grouped } } })
          (fun lease ch => finishExec ch (okWith (slotResult ch (if leave then 0x0805 else 0x0802) lease)))
      | _ => s

/-- The boot record is verified on every device in service: a hitless update ends (R447 step 5). -/
def bootWritten (ch : Chip) : Chip :=
  let busy (x : Xspi) := (xsOps x).any (·.tag = .boot)
  if busy ch.xspi0 || busy ch.xspi1 || !ch.fw.bootRecDue then ch
  else
    let ch := { ch with fw := { ch.fw with bootRecDue := false } }
    let img := runningImg ch
    let ch := event ch 0x0007 0 none [(img.release, 32), (img.svn, 8)]
    match ch.fw.activate with
    | some (h, _) => jobDue { ch with fw := { ch.fw with activate := none } } h stOk 0 0
    | none => ch

/-! ### A device leaves service (R421, R426) -/

/-- The compaction that ran is over. -/
def compactDone (s : State) : State :=
  let busy (x : Xspi) := (xsOps x).any (·.tag = .compact)
  if busy s.chip.xspi0 || busy s.chip.xspi1 then s
  else vaultCompact { s with chip := { s.chip with fw := { s.chip.fw with compacting := none } } }

/-- What waits for operations on either device goes on with the operations that are left. -/
def afterDrop (s : State) : State :=
  let s := groupWritten { s with chip := bootWritten s.chip }
  vaultEraseStep (clearStep s)

/-- The recovery of a device ends with a failure of its source (R427): what waits of it is dropped. -/
def endRecovery (ch : Chip) (d : Fin 2) : Chip :=
  modXspi ch d fun x =>
    if x.recovery.isNone then x else { x with recovery := none, queue := x.queue.filter (·.tag != .mirror) }

/-- The device leaves service: its operations stop, and each writer behaves as R426 says. -/
def deviceOut (s : State) (d : Fin 2) : State :=
  let x := getXspi s.chip d
  let hadVault := (xsOps x).any (·.tag = .vault)
  let hadPip := (xsOps x).any (·.tag = .pip)
  let x := { x with inService := false, answers := false, bus := none, queue := [], recovery := none }
  let ch := endRecovery (setXspi s.chip d x) (if d = 0 then 1 else 0)
  let ch := if ch.damson.res.isSome && !ch.damson.blocked then leaseBlock ch d.val else ch
  let ch := if hadVault then vaultGiveUp ch 6 else ch
  let ch := stageFail ch
  let ch := { ch with fw := { ch.fw with compacting := none, vaultQ := ch.fw.vaultQ.filter (·.why != .compact) } }
  let s := { s with chip := ch }
  afterDrop (if hadPip then recAdvance s else s)

/-- A device fails under R421: FK_FLASH is raised and it leaves service. -/
def deviceFail (s : State) (d : Fin 2) : State :=
  deviceOut { s with chip := raise s.chip (srcXspi d.val) fkFlash (ctxPlain d.val) } d

/-- What follows an operation whose own work is done on its device. -/
def opEnded (s : State) (d : Fin 2) (op : FlashOp) (ok : Bool) : State :=
  match op.tag with
  | .lease => leaseDone s d ok
  | .pip =>
    let s := if ok then s else { s with chip := { s.chip with recorder := { s.chip.recorder with spoil := true } } }
    recAdvance s
  | .vault => vaultCompact { s with chip := vaultCompactErase (vaultReport s.chip d ok) }
  | .boot => { s with chip := bootWritten s.chip }
  | .group => groupWritten s
  | .stagePage => { s with chip := stageOpDone s.chip op ok }
  | .stageErase => { s with chip := stageOpDone s.chip op ok }
  | .compact => compactDone s
  | .vaultErase => vaultEraseStep s
  | .logErase => clearStep s
  | .mirror => recoveryStep s d
  | .journalErase => s
  | .repair => s

/-- Start whatever waits on both controllers. -/
def xsStartBoth (s : State) : State := { s with chip := xsStart (xsStart s.chip 0) 1 }

/-- Read-backs that failed within the last second, with this one (R421). -/
def countBadProg (ch : Chip) (x : Xspi) : Xspi :=
  { x with badProgs := (x.badProgs.filter fun t => nowUs ch < t + 1000000) ++ [nowUs ch] }

/-- What an operation does after a program: a ring record that failed goes to the next position (R424), and an erase whose
intent record is written goes on. None: it has ended. -/
def opAgain (op : FlashOp) (ok : Bool) : Option FlashOp :=
  if (ringOf op).isNone then none
  else if !ok then some op
  else if needsIntent op then some { op with phase := .erase }
  else none

/-- A program operation and its read-back end on a device (R424, R426, R428). -/
def programDone (s : State) (d : Fin 2) (ok : Bool) : State :=
  let x := getXspi s.chip d
  match x.bus with
  | none => s
  | some op =>
    match opProgram s.chip d op with
    | none => s
    | some (addr, bs) =>
      let put := if ok then bs else tornBytes s.chip bs
      let s := setFlash s d (flashProgram (getFlash s d) addr put)
      let ch := if ok then s.chip else { s.chip with free := s.chip.free + bs.length }
      let x := { x with bus := none }
      let x := if ok then x else countBadProg ch x
      let x := match ringOf op with
        | some r => ringAdvance r (if ok && op.bytes.isNone then { x with intentSeq := x.intentSeq + 1 } else x)
        | none => x
      let s :=
        match opAgain op ok with
        | some o => { s with chip := setXspi ch d { x with queue := o :: x.queue } }
        | none => opEnded { s with chip := setXspi ch d x } d op ok
      let s := if 16 ≤ (getXspi s.chip d).badProgs.length then deviceFail s d else s
      xsStartBoth s

/-- What follows a sector erased on a device: the record of the ring that enters it (R424), the completion record (R428), or
for a ring's sector outside its ring's own use nothing. -/
def erasedNext (s : State) (d : Fin 2) (op : FlashOp) : State :=
  let op := { op with tries := 0 }
  match ringOf op with
  | some r => { s with chip := modXspi s.chip d fun x => { x with erased := r :: x.erased, queue := op :: x.queue } }
  | none =>
    if inRing op.addr then opEnded s d op true
    else { s with chip := modXspi s.chip d fun x => { x with queue := { op with phase := .completion } :: x.queue } }

/-- A sector erase and its blank check end on a device (R428); one that fails is done again, up to three times (R421). -/
def eraseDone (s : State) (d : Fin 2) (ok : Bool) : State :=
  let x := getXspi s.chip d
  match x.bus with
  | none => s
  | some op =>
    match eraseAt x op with
    | none => s
    | some addr =>
      let s := { s with chip := setXspi s.chip d { x with bus := none } }
      if ok then xsStartBoth (erasedNext (setFlash s d (flashErase (getFlash s d) addr)) d op)
      else if op.tries + 1 < 3 then
        xsStartBoth { s with chip := modXspi s.chip d fun x => { x with queue := { op with tries := op.tries + 1 } :: x.queue } }
      else xsStartBoth (deviceFail s d)

/-- The bound of an operation's time: twice the limit of Table 19.1, in microseconds (R421). -/
def opLimitUs (x : Xspi) (op : FlashOp) : Nat := if (eraseAt x op).isSome then 80000 else 600

end Sys2Proof.Machine
end

