-- ==== Sys2Proof/Machine/Reactions.lean ====
section
/-! DEFINITION. The fault collector and the reactions it orders (15_faults.md, R342 to R360): unit resets and fences
(Table 15.6, R353, R359, R369), tenant faults (R354), HALT and ZEROIZE (R355, R356), and the settle windows of R358. -/

namespace Sys2Proof.Machine

/-! ### Line ports: answering what is taken (R198, R199) -/

/-- A response on FS_ with ERROR. -/
def fsError (write : Bool) (tag status : Nat) : FsPins :=
  { valid := true, write := write, tag := tag % 256, resp := 2, status := status, data := 0 }

/-- Requests of the fabric that a lane has taken and not answered, in order. -/
def laneHost (l : Lane) : List (Bool × Nat) :=
  let ofOps (ops : List LineOp) := (ops.filter (·.kind = .host)).map fun o => (o.write, o.tag)
  ofOps l.reads ++ ofOps l.stuck ++ ofOps l.mq ++ l.held.map fun q => (q.write, q.tag.toNat)

/-- A lane answers everything it has taken, `fq` among it, with ERROR and a status; data of reads the controller has taken
is discarded when it comes. -/
def laneAbort (status : Nat) (fq : List LineRequest) (l : Lane) : Lane :=
  { l with
    fs := (laneHost l ++ fq.map fun q => (q.write, q.tag.toNat)).map fun h => fsError h.1 h.2 status
    mq := [], bg := [], stuck := [], reads := [], held := []
    aborted := l.aborted ++ l.reads.map (·.tag) }

/-- Entries of line requests in a lane. -/
def laneEntries (l : Lane) : List Nat := ((l.reads ++ l.stuck ++ l.mq).filter (·.kind = .host)).map (·.entry)

/-- Requests of a lane that wait for their lookup. -/
def fqLane (l : LinePort) (a : Fin 2) : List LineRequest := (l.fq.filter fun x => x.lane = a).map (·.req)

def lineInflight (ch : Chip) (e : Nat) : Nat := Tbl.get 0 ch.keys.linflight e
def setLineInflight (ch : Chip) (e n : Nat) : Chip :=
  { ch with keys := { ch.keys with linflight := Tbl.set 0 ch.keys.linflight e n } }

/-- The granules of a region include one that LINE_MAP sends to a port (R193). -/
def regionUsesPort (c : Cfg) (r p : Nat) : Bool :=
  let e := regionOf c r
  let n := max 1 (lineCount c)
  let g0 := rgFirst e >>> granule c
  let g1 := rgLast e >>> granule c
  rgKind e != 0 && (List.range (min n (g1 - g0 + 1))).any fun i => ptab c ((g0 + i) % n) = p

/-- Pause every sweep that uses a port (R194, R198): one that another port has paused waits for both. -/
def pauseSweeps (ch : Chip) (p : Nat) : Chip :=
  (ch.sweeps.map (·.1)).foldl (fun ch r =>
    let w := getSweep ch r
    if (w.state = 1 || (w.state = 2 && !w.byPort.isEmpty)) && regionUsesPort ch.cfg r p then
      setSweep ch r { w with state := 2, byPort := p :: w.byPort.filter (· != p) }
    else ch) ch

/-- A port that is enabled again holds no sweep: those that no other port holds resume (R266). -/
def resumeSweeps (ch : Chip) (p : Nat) : Chip :=
  (ch.sweeps.map (·.1)).foldl (fun ch r =>
    let w := getSweep ch r
    let left := w.byPort.filter (· != p)
    if w.byPort.contains p then setSweep ch r { w with state := if left.isEmpty then 1 else 2, byPort := left } else ch) ch

/-! ### Line key entries -/

/-- Entries that KEEP holds in every group's registers (R183). -/
def keepEntries (c : Cfg) : List Nat :=
  c.regions.flatMap fun e =>
    if rgKind e.2 != 0 && rgKeep e.2 then
      rgCkey e.2 :: (if rgRekey e.2 then [rgNkey e.2] else [])
    else []

/-- KEEP keys that exist. -/
def keepHeld (ch : Chip) : List Nat := (keepEntries ch.cfg).filter fun e => ldState (lineDesc ch e) = ssActive

/-- The registers of a group: the KEEP keys, and of the other keys the 8 most recently used (R183). -/
def groupRegs (ch : Chip) (regs : List Nat) : List Nat :=
  let keep := keepHeld ch
  keep ++ (regs.filter fun e => !keep.contains e).take 8

/-- Fill every group's registers with the KEEP keys (R183). -/
def fillKeep (ch : Chip) : Chip :=
  { ch with keys := { ch.keys with
    lregs := (List.range 8).foldl (fun t g => Tbl.set [] t g (groupRegs ch (Tbl.get [] t g))) ch.keys.lregs } }

/-- The key of an entry comes into a group's registers, in place of the least recently used that KEEP does not hold. -/
def touchReg (ch : Chip) (g e : Nat) : Chip :=
  let regs := Tbl.get [] ch.keys.lregs g
  if ldState (lineDesc ch e) = ssEmpty || ldState (lineDesc ch e) = ssClearing then ch
  else { ch with keys := { ch.keys with lregs := Tbl.set [] ch.keys.lregs g (groupRegs ch (e :: regs.filter (· != e))) } }

/-- A line key entry enters CLEARING: its key leaves the stores and the key registers (R117, R181). -/
def clearEntry (ch : Chip) (e : Nat) : Chip :=
  let ch := eraseLine (setLineDesc ch e (setFld (lineDesc ch e) 125 3 ssClearing)) e
  { ch with keys := { ch.keys with lregs := Tbl.mapVals [] (fun _ r => r.filter (· != e)) ch.keys.lregs } }

/-- A RETIRING entry with no request in flight enters CLEARING. -/
def checkEntry (ch : Chip) (e : Nat) : Chip :=
  if ldState (lineDesc ch e) = ssRetiring && lineInflight ch e = 0 then clearEntry ch e else ch

/-- A request of the fabric under an entry has ended (R197). -/
def leaveEntry (ch : Chip) (e : Nat) : Chip := checkEntry (setLineInflight ch e (lineInflight ch e - 1)) e

/-- A port answers every request taken with ERROR and a status, and its tweak store is empty (R198). -/
def lineAbort (ch : Chip) (p status : Nat) : Chip :=
  let l := getLine ch p
  let ch := setLine ch p { l with
    fq := []
    lane0 := laneAbort status (fqLane l 0) l.lane0
    lane1 := laneAbort status (fqLane l 1) l.lane1 }
  (laneEntries l.lane0 ++ laneEntries l.lane1).foldl leaveEntry ch

/-- Fence a line port (R198). -/
def fenceLine (ch : Chip) (p cause : Nat) : Chip :=
  pauseSweeps (modLine (lineAbort ch p stAborted) p fun l => { l with st := .fenced, cause := cause }) p

/-! ### Work that a unit carries -/

/-- The requests that a cluster serves, by port. REBUILD passes no cluster (R170). -/
def servedBy (ch : Chip) (c : Nat) : List (Nat × Req) :=
  ch.ports.flatMap fun e =>
    (e.2.reqs.filter fun q => q.cluster = c && !q.dead && sbOp q.sb != opRebuild).map fun q => (e.1, q)

/-- The DECODE and REBUILD requests through a Currant, and its rows (Table 15.6). -/
def currantEnd (ch : Chip) (u : Nat) : Chip :=
  let rows := (getPort ch u).cur.rows
  let ch := rows.foldl (fun ch row => discardRow ch u row 3 0x60) ch
  let qs := (getPort ch u).reqs.filter fun q => !q.dead && (sbOp q.sb = opDecode || sbOp q.sb = opRebuild)
  let ch := qs.foldl (fun ch q => endReq ch u q stAborted 0x47) ch
  -- What remains in a repass is an ENCODE's flit, whose row is gone: it goes on (R173).
  modPort ch u fun pt => { pt with cur := { pt.cur with
    repass := none, fromReturn := pt.cur.repass.toList ++ pt.cur.fromReturn } }

/-- A cluster's staged work is issued again from its beginning, flits held for the reset among it (R362); key file and kept tweaks
go (Table 15.6). -/
def clusterReset (ch : Chip) (c : Nat) : Chip :=
  modCluster ch c fun cl =>
    { cl with
      staging := (cl.stuck ++ cl.retry.map (·.flit) ++ cl.staging).map fun f => { f with done := 0 }
      retry := [], stuck := [], keyFile := [], tweaks := [] }

/-- A fenced cluster ends what it serves, and its sub-leases are skipped (Table 15.6, R143). -/
def clusterEnd (ch : Chip) (c : Nat) : Chip :=
  let ch := (servedBy ch c).foldl (fun ch pq => endReq ch pq.1 pq.2 stAborted 0x47) ch
  modCluster ch c fun cl =>
    { cl with
      fwdIn := [], retIn := [], staging := [], retry := [], stuck := [], keyFile := [], tweaks := [], cur := none, nxt := none
      secondAt := [] }

/-- Accesses of the control port in flight end in an error response (Table 15.6). -/
def controlReset (ch : Chip) : Chip :=
  match ch.ctl.stall with
  | some _ => { ch with ctl := { ch.ctl with stall := none, behind := [], err := true, data := 0 } }
  | none => { ch with ctl := { ch.ctl with behind := [] } }

/-! ### Unit IDs -/

/-- Type and index of a level-5 unit. -/
def unitType (id : Nat) : Nat := id % 0x2000 / 0x200
def unitIndex (id : Nat) : Nat := id % 0x200

def isStreamSlice (id : Nat) : Bool := srcLevel id = 4 && id % 0x2000 < 0x1000
def isLineSlice (id : Nat) : Bool := srcLevel id = 4 && 0x1000 ≤ id % 0x2000
def isUnit5 (ty id : Nat) : Bool := srcLevel id = 5 && unitType id = ty

def sliceCluster (id : Nat) : Nat := id % 0x1000 / 64
def slicePort (id : Nat) : Nat := id % 0x1000 / 32

/-! ### Resets and fences -/

/-- Open the settle window of a unit (R358): it runs out SETTLE after `settleFrom`. -/
def openSettle (u : UnitSt) (ch : Chip) (ended : Bool) : UnitSt :=
  { u with settle := true, settleFrom := if ended then some ch.cycle else none }

/-- The settle window that a fence opens: none for a fence that a command ordered (R358). -/
def fenceSettle (u : UnitSt) (ch : Chip) (cause : Nat) : UnitSt := if cause = 3 then u else openSettle u ch true

/-- Effect of a reset on a unit's work (Table 15.6). -/
def resetWork (ch : Chip) (id : Nat) : Chip :=
  if isUnit5 0 id then clusterReset ch (unitIndex id)
  else if isUnit5 2 id then currantEnd ch (unitIndex id)
  else if isUnit5 3 id then lineAbort ch (unitIndex id) stAborted
  else if isUnit5 4 id then
    let g := unitIndex id
    let ch := (List.range 4).foldl (fun ch i => lineAbort ch (4 * g + i) stAborted) ch
    fillKeep { ch with keys := { ch.keys with lregs := Tbl.set [] ch.keys.lregs g [] } }
  else if isUnit5 6 id then controlReset ch
  else ch

/-- Reset a unit (R352): it shows FENCED until the reset ends, and its settle window is open. -/
def doReset (ch : Chip) (id : Nat) : Chip :=
  let u := getUnit ch id
  let g := (u.sgen + 1) % 65536
  let u := { u with
    live := .fenced, mirror := .fenced, sgen := g, msgen := g, resetting := true
    resets := (u.resets.filter fun t => nowUs ch < t + 1000000) ++ [nowUs ch] }
  updateReplace (resetWork (setUnit ch id (openSettle u ch false)) id)

/-- Unfenced clusters other than `c`. -/
def otherClusters (ch : Chip) (c : Nat) : Bool := (List.range 64).any fun k => k != c && !clusterDown ch k

/-- A fence of a unit that is being reset waits for the end of the reset (R353). -/
def fenceLater (ch : Chip) (id cause : Nat) : Chip := setUnit ch id { getUnit ch id with fenceNext := some cause }

/-- The group of a line port is fenced, and with it the port (Table 15.6), as its unit state shows (R316). -/
def fenceOfGroup (ch : Chip) (p cause : Nat) : Chip :=
  let id := srcLine p
  let u := getUnit ch id
  if u.live = .down then ch
  else if u.resetting then fenceLater ch id cause
  else
    let ch := changeUnit ch id .down cause
    fenceLine (setUnit ch id (fenceSettle (getUnit ch id) ch cause)) p 3

/-- Fence a level-5 unit other than an xSPI controller (Table 15.6); `cause` as R316. -/
def fenceUnit5 (ch : Chip) (id cause : Nat) : Chip :=
  let ch := changeUnit ch id .down cause
  let u := getUnit ch id
  let ch := setUnit ch id (fenceSettle { u with resetting := false, fenceNext := none } ch cause)
  let i := unitIndex id
  if isUnit5 0 id then
    let ch := clusterEnd ch i
    { ch with quince := { ch.quince with rewrite := ch.quince.rewrite ++ [i] } }
  else if isUnit5 1 id then
    if (getPort ch i).st = .enabled then fencePort ch i 3 (fun _ => 0x43)
    else modPort ch i fun pt => { pt with st := .fenced, cause := 3 }
  else if isUnit5 2 id then currantEnd ch i
  else if isUnit5 3 id then fenceLine ch i 3
  else if isUnit5 4 id then (List.range 4).foldl (fun ch k => fenceOfGroup ch (4 * i + k) cause) ch
  else ch

/-- A cluster or line port has lost its last active slice: it is fenced, at the end of its reset if one runs (R353). -/
def fenceEmptied (ch : Chip) (id cause : Nat) : Chip :=
  let u := getUnit ch id
  if u.live = .down then ch else if u.resetting then fenceLater ch id cause else fenceUnit5 ch id cause

/-- Fence a slice: its standby takes its place, and a set without an active slice takes its cluster or line port down
(R369, R370). -/
def fenceSlice (ch : Chip) (id cause : Nat) : Chip :=
  let wasActive := (getUnit ch id).live = .active || (getUnit ch id).resetting
  let ch := changeUnit ch id .down cause
  let u := getUnit ch id
  let ch := setUnit ch id (fenceSettle { u with resetting := false, fenceNext := none } ch cause)
  if isStreamSlice id then
    let c := sliceCluster id
    let ch := if wasActive && activeStream ch c < 16 then
        (match standbyStream ch c with
        | some s => changeUnit ch (srcSlice c s) .active 0
        | none => ch)
      else ch
    if activeStream ch c = 0 then fenceEmptied ch (srcCluster c) cause else ch
  else
    let p := slicePort id
    let ch := if wasActive && activeLine ch p < 8 then
        (match standbyLine ch p with
        | some s => changeUnit ch (srcLineSlice p s) .active 0
        | none => ch)
      else ch
    if activeLine ch p = 0 then fenceEmptied ch (srcLine p) cause else ch

/-- Fence a unit (R352), with what follows from the counts (R374, R375). -/
def doFence (s : State) (id cause : Nat) : State :=
  let s :=
    if isUnit5 5 id then
      let ch := changeUnit s.chip id .down cause
      let u := getUnit ch id
      let ch := setUnit ch id (fenceSettle { u with resetting := false, fenceNext := none } ch cause)
      deviceOut { s with chip := ch } (if unitIndex id = 0 then 0 else 1)
    else if srcLevel id = 4 then { s with chip := fenceSlice s.chip id cause }
    else { s with chip := fenceUnit5 s.chip id cause }
  { s with chip := checkOvercommit (updateReplace s.chip) }

/-- What an order comes to (R352, R353, R359): 0 none, 1 reset, 2 fence at once, 3 fence when the running reset ends, with
the fence's cause. -/
def planOrder (ch : Chip) (id action cause : Nat) : Nat × Nat :=
  let u := getUnit ch id
  let action :=
    if action = 1 && (isUnit5 1 id || isUnit5 5 id) then 2
    else if action = 2 && isUnit5 6 id then 1
    else action
  let (action, cause) :=
    if action = 1 && 3 ≤ (u.resets.filter fun t => nowUs ch < t + 1000000).length && !isUnit5 6 id then (2, 2)
    else (action, cause)
  if action = 0 then (0, 0)
  else if u.live = .down then (0, 0)
  else if action = 1 then (if u.resetting || u.live = .fenced then (0, 0) else (1, 0))
  else if isUnit5 0 id && !otherClusters ch (unitIndex id) then (0, 0)
  else if u.resetting then (3, cause)
  else (2, cause)

/-- Carry out a planned order. -/
def doOrder (s : State) (id : Nat) (plan : Nat × Nat) : State :=
  if plan.1 = 1 then { s with chip := doReset s.chip id }
  else if plan.1 = 2 then doFence s id plan.2
  else if plan.1 = 3 then { s with chip := fenceLater s.chip id plan.2 }
  else s

/-! ### HALT and ZEROIZE (R355, R356) -/

/-- The ZERO_FILL of a fence's first record as an egress message under way, if it is. -/
def recordUnderWay (recs : List FenceRec) : List EMsg :=
  match recs with
  | r :: _ =>
    if 0 < r.zsent && r.zsent < r.zf then
      [{ sb := r.sb, cls := r.cls, kind := 3, shard := sbShard r.sb, iv := r.iv, outlen := r.zf, headDriven := true
         sent := r.zsent, epoch := r.epoch, keyidx := r.keyidx, kgen := r.kgen }]
    else []
  | [] => []

/-- The egress of a port after a HALT: one closing flit for each class under way, nothing else (R355 step 5). -/
def haltEgress (pt : Port) : Port :=
  let under := recordUnderWay pt.recs ++ pt.msgs.filter (·.headDriven)
  { pt with
    msgs := under.map fun m => { m with data := [], closed := true, tail := some (stHalted, 0x46), last := false, ends := false }
    reqs := [], recs := []
    ing := Quad.map (fun _ ic => { ic with waiting := [], run := .idle, gap := 0 }) pt.ing
    cur := {}, stall := Quad.all 0, stalled := Quad.all false }

/-- The command that executes ends with ST_HALTED unless it is served under HALT (Table 11.10). -/
def haltExec (ch : Chip) : Chip :=
  match ch.quince.exec with
  | some x =>
    match x.wait with
    | .flush _ => ch
    | _ => finishExec ch { status := stHalted, detail := 0 }
  | none => ch

/-- Running jobs are abandoned with ST_HALTED (Table 11.10). During a handover the results are due, to be stored after ready, a
job that has ended keeps its own, and the activation goes on (R449). -/
def haltJobs (ch : Chip) : Chip :=
  let live := ch.mbs.flatMap fun e => e.2.jobs.filter isRunning
  if ch.fw.handover then
    let own (j : Job) : Bool := match ch.fw.activate with | some (h, _) => j.handle = h | none => false
    let hs := (live.filter fun j => j.due.isNone && !own j).map (·.handle)
    hs.foldl (fun ch h => jobDue ch h stHalted 0 0) { ch with fw := { ch.fw with groupJob := none } }
  else
    (live.map (·.handle)).foldl (fun ch h => storeJob ch h (stHalted, 0, 0))
      { ch with fw := { ch.fw with groupJob := none, activate := none } }

/-- The staging session ends (R319): its target is INVALID. -/
def endStage (ch : Chip) : Chip :=
  let ch := stageFail ch
  match ch.fw.stage with
  | none => ch
  | some g =>
    { ch with fw := setImgOf { ch.fw with stage := none, window := [] } g.target g.which .invalid }

/-- Freeze the data path and close the egress (R355 steps 1, 3, 4 and 5). Open rows are discarded (Table 7.5). -/
def haltPlane (ch : Chip) : Chip :=
  let rows := ch.ports.flatMap fun e => e.2.cur.rows.map fun r => (e.1, r)
  let ch := rows.foldl (fun ch pr => discardRow ch pr.1 { pr.2 with closer := none } 6 0x60) ch
  let ch := (ch.lines.map (·.1)).foldl (fun ch p => lineAbort ch p stHalted) ch
  { ch with
    ports := Tbl.mapVals {} (fun _ pt => haltEgress pt) ch.ports
    clusters := Tbl.mapVals {} (fun _ cl =>
      { cl with fwdIn := [], retIn := [], staging := [], retry := [], stuck := [], cur := none, nxt := none, secondAt := [] })
      ch.clusters
    damson := { ch.damson with stopped := true } }

/-- Enter HALT for a causing source (R355). -/
def enterHalt (ch : Chip) (src : Nat) : Chip :=
  let f := { ch.faults with react := 1, cause := src, haltAt := ch.cycle, closing := true, sweeping := true }
  let ch := { ch with faults := f, dstate := 2 }
  haltJobs (haltExec (endStage (haltPlane (logicalZeroize ch))))

/-- The HALT reaction: nothing further under a reaction (R356). -/
def reactHalt (s : State) (src : Nat) : State :=
  if halted s.chip then s
  else { s with chip := enterHalt s.chip src, aon := { s.aon with zeroize := true } }

/-- The ZEROIZE reaction (R356): everything of HALT, the device secret is killed (R135), and the officer keys go (R108). -/
def reactZeroize (s : State) (src : Nat) : State :=
  if s.chip.faults.react = 2 then s
  else
    let s := reactHalt s src
    let s := { s with aon := { s.aon with zeroize := true } }
    let ch := s.chip
    let ch := { ch with
      dstate := 3
      faults := { ch.faults with react := 2, cause := src, sweeping := true, quiet := false }
      keys := { ch.keys with offA := { ch.keys.offA with key := [], enrolled := false }
                             offB := { ch.keys.offB with key := [], enrolled := false } } }
    killSecret { s with chip := ch }

/-! ### Settle windows and consequential messages (R358) -/

/-- The settle window of a unit is open. -/
def settleOpen (ch : Chip) (id : Nat) : Bool :=
  let u := getUnit ch id
  u.settle && match u.settleFrom with
    | some t => 4 * ch.cycle < 4 * t + ch.faults.settle * usCycles ch
    | none => true

/-- CONTEXT bits 20:0 name a level-5 unit (R358). -/
def ctxNames (ctx : BitVec 32) (ty i : Nat) : Bool := fld ctx 8 3 = ty && fld ctx 0 6 = i

/-- CONTEXT of a kind carries a flash device number (Table 15.4). -/
def kindNamesDevice (kind : Nat) : Bool := kind = fkLeaseWrite || kind = fkFlash

/-- Units of whose shadow set a message's source is part (R358, Table 15.8). -/
def shadowUnits (src kind : Nat) (ctx : BitVec 32) : List Nat :=
  let own := (srcUnit src).toList
  let xbar := src = srcSub 3 || src = srcSub 4
  let low := fld ctx 0 6
  let ty := fld ctx 8 3
  let more : List Nat :=
    match srcUnit src with
    | some id =>
      let i := unitIndex id
      if isStreamSlice id then [srcCluster (sliceCluster id)]
      else if isLineSlice id then [srcLine (slicePort id), srcGroup (groupOf (slicePort id))]
      else if isUnit5 0 id then
        (List.range 17).map (srcSlice i) ++ (if ty = 1 then [srcPort low] else [])
      else if isUnit5 1 id then [srcCurrant i]
      else if isUnit5 2 id then [srcPort i]
      else if isUnit5 3 id then (List.range 9).map (srcLineSlice i) ++ [srcGroup (groupOf i)]
      else if isUnit5 4 id then (List.range 4).map fun k => srcLine (4 * i + k)
      else []
    | none =>
      if xbar then
        (if ty = 0 then [srcCluster low] else if ty = 1 then [srcPort low]
         else if ty = 2 && src = srcSub 4 then [srcCurrant low] else [])
      else if src = 0x2014 then [srcPort low]
      else if src = srcSub 7 || src = srcSub 9 || src = srcSub 0 || src = 0x2017 then
        (if kindNamesDevice kind then [srcXspi (fld ctx 0 1)] else [])
      else if src = 0x2018 then [srcControl]
      else []
  own ++ more

/-- The message is consequential for a severity up to TENANT: an open window masks it, or its own unit is fenced. -/
def masked (ch : Chip) (src kind : Nat) (ctx : BitVec 32) : Bool :=
  (shadowUnits src kind ctx).any (settleOpen ch) ||
  match srcUnit src with
  | some id =>
    let u := getUnit ch id
    u.live = .down || (u.live = .fenced && !u.resetting) || (isUnit5 1 id && (getPort ch (unitIndex id)).st = .fenced) ||
      (isUnit5 3 id && (getLine ch (unitIndex id)).st = .fenced)
  | none => false

/-! ### One message (R350) -/

/-- A fault message as delivered. -/
structure FaultMsg where
  src : Nat
  kind : Nat
  ctx : BitVec 32
  seq : Nat
deriving DecidableEq, Repr

/-- FAULT_LAST (Table 15.1). -/
def faultWord (m : FaultMsg) : Word64 :=
  BitVec.ofNat 64 (field 48 16 m.src ||| field 40 8 m.kind ||| field 8 32 m.ctx.toNat ||| field 0 8 m.seq)

def ctxTv (ctx : BitVec 32) : Bool := ctx.getLsbD 31
def ctxTenantOf (ctx : BitVec 32) : Nat := fld ctx 21 10

/-- The message is the first of a counted kind within a second (R347). -/
def firstCounted (ch : Chip) (f : FaultSrc) (kind : Nat) : Bool :=
  kindCounted kind && !f.counted.any fun (c : Nat × Nat) => c.1 = kind && nowUs ch < c.2 + 1000000

/-- The effective severity (R347, R354, R381): `level` overrides for command sources, whose index holds it. -/
def effSev (s : State) (m : FaultMsg) (first : Bool) (ix : Nat) : Nat :=
  let taken := if kindNote m.kind || first then 0 else sevOf s.chip ix
  let eff := max taken (kindFloor m.kind)
  let unlocked := match srcRind m.src with | some i => 11 ≤ i && !s.otp.locked | none => false
  let eff := if unlocked then 3 else eff
  if eff = 2 && !ctxTv m.ctx then 1 else eff

/-- A TENANT fault (R354, R227): whether a reset starts. -/
def tenantFault (ch : Chip) (t ix : Nat) : Chip :=
  match (getTenant ch t).st with
  | .enabled => tenantReset ch t 3 3 [ix]
  | .resetting =>
    modTenant ch t fun tn => if tn.toward = 2 then tn else { tn with toward := 3, causes := tn.causes ++ [ix] }
  | .disabled => ch
  | .faulted => modTenant ch t fun tn => { tn with causes := tn.causes ++ [ix] }

/-- EV_FAULT (R350). -/
def evFault (ch : Chip) (m : FaultMsg) (eff action : Nat) (conseq first : Bool) (add sgen : Nat) : Chip :=
  let w := (faultWord m).toNat
  let p2 := field 0 8 eff ||| field 8 8 action ||| field 16 1 (if conseq then 1 else 0) |||
    field 17 1 (if first then 1 else 0) ||| field 24 8 (min add 255)
  let p3 := field 0 16 sgen ||| (if ctxTv m.ctx then field 16 10 (ctxTenantOf m.ctx) else 0)
  let flags := (if ctxTv m.ctx then 1 else 0) + (if conseq then 2 else 0)
  eventRaw ch 0x0100 eff flags (bits w 32 32) (bits w 0 32) p2 p3

/-- Handle one delivered message (R350). A source disabled by fuse sends none (R349). -/
def collect (s : State) (m : FaultMsg) : State :=
  match srcSticky m.src with
  | none => s
  | some ix =>
    let ch := s.chip
    let f := getSrc ch m.src
    let add := max 1 ((m.seq + 256 - f.seen) % 256)
    let first := firstCounted ch f m.kind
    let f := { f with
      rep := satAdd 16 f.rep add, seen := m.seq, kind := m.kind, ctx := m.ctx
      counted := if kindCounted m.kind then
          (f.counted.filter fun (c : Nat × Nat) => c.1 != m.kind) ++ [(m.kind, nowUs ch)] else f.counted }
    let eff := effSev s m first ix
    let conseq := eff ≤ 2 && masked ch m.src m.kind m.ctx
    let ch := setSrc { ch with faults := { ch.faults with last := faultWord m } } m.src { f with conseq := conseq }
    let unit := srcUnit m.src
    let sgen := match unit with | some id => (getUnit ch id).sgen | none => 0
    if conseq || kindNote m.kind || first then
      { s with chip := evFault ch m eff 0 conseq first add sgen }
    else
      let st := getSticky ch ix
      let react := halted ch
      let heavy := (eff = 3 && !react) || (eff = 4 && ch.faults.react != 2)
      let ch := setSticky ch ix { st with bit := true, locked := st.locked || heavy }
      let ch := if st.bit then ch else attRaise ch 0x800 4
      let plan := match unit with
        | some id => if eff = 1 && !react then planOrder ch id (kindAction m.kind) 1 else (0, 0)
        | none => (0, 0)
      let action :=
        if eff = 1 then (if plan.1 = 3 then 2 else plan.1)
        else if eff = 2 then (if react || (getTenant ch (ctxTenantOf m.ctx)).st != .enabled then 0 else 3)
        else if eff = 3 then (if react then 0 else 4)
        else if eff = 4 then (if ch.faults.react = 2 then 0 else 5)
        else 0
      let after := if plan.1 = 1 || plan.1 = 2 then (sgen + 1) % 65536 else sgen
      let s := { s with chip := evFault ch m eff action false false add after }
      if eff = 1 then (match unit with | some id => doOrder s id plan | none => s)
      else if eff = 2 then (if react then s else { s with chip := tenantFault s.chip (ctxTenantOf m.ctx) ix })
      else if eff = 3 then reactHalt s m.src
      else if eff = 4 then reactZeroize s m.src
      else s

/-- The fuse of a Rind source is blown, and the source disabled (R390). -/
def rindDisabled (s : State) (src : Nat) : Bool :=
  match srcRind src with
  | some i => s.otp.disabled.getLsbD i
  | none => false

/-- Take the oldest message of a source's pending register off the network. -/
def takePending (ch : Chip) (src : Nat) (note : Bool) : Option (FaultMsg × Chip) :=
  let f := getSrc ch src
  match (if note then f.pendNote else f.pendOther) with
  | none => none
  | some (kind, ctx, seq) =>
    let f' := if note then { f with pendNote := none } else { f with pendOther := none }
    let net := match takeFirst (fun e : Nat × Bool => e.1 = src && e.2 = note) ch.faults.net with
      | some (_, rest) => rest
      | none => ch.faults.net
    let ch := setSrc ch src f'
    some ({ src := src, kind := kind, ctx := ctx, seq := seq }, { ch with faults := { ch.faults with net := net } })

/-- A source forms a message that reaches the collector in the same step. -/
def report (s : State) (src kind : Nat) (ctx : BitVec 32) : State :=
  if rindDisabled s src || (srcSticky src).isNone then s
  else
    match takePending (raise s.chip src kind ctx) src (kindNote kind) with
    | some (m, ch) => collect { s with chip := ch } m
    | none => s

/-- The oldest message that waits in a lane. -/
def laneHead (ch : Chip) (lane : Nat) : Option (Nat × Bool) := ch.faults.net.find? fun e => srcLane e.1 = lane

end Sys2Proof.Machine
end

