-- ==== Sys2Proof/Machine/Lines.lean ====
section
/-! DEFINITION. The line plane (08_lines.md): lookup and checks, the line transform and its MAC, reads and writes, the
initialisation sweep; and the rekey of line regions (R213 to R219, 09_change.md). -/

namespace Sys2Proof.Machine

/-! ### The line transform (R185 to R187) -/

/-- The tweak block (`last` = 0x00) or mask block (`last` = 0x80) of a line (R185). -/
def lineBlock (addr lgen : Nat) (last : Byte) : List Byte := toLE 6 addr ++ zeros 2 ++ toLE 1 lgen ++ zeros 6 ++ [last]

/-- Halves of a line key string: K1 and K2. -/
def lineK1 (key : List Byte) : List Byte := key.take (key.length / 2)
def lineK2 (key : List Byte) : List Byte := key.drop (key.length / 2)

/-- Hash key and mask of a line (R185). -/
def lineHash (key : List Byte) (addr lgen : Nat) : BitVec 32 × BitVec 32 :=
  let v := aesEnc (lineK2 key) (lineBlock addr lgen 0x80#8)
  let hk := BitVec.ofNat 32 (ofLE ((v.drop 4).take 4))
  (if hk = 0 then 1 else hk, BitVec.ofNat 32 (ofLE (v.take 4)))

/-- The MAC of a line's ciphertext. -/
def macOfLine (key : List Byte) (addr lgen : Nat) (ct : List Byte) : BitVec 32 :=
  let h := lineHash key addr lgen
  lineMac h.1 h.2 ct

/-- Encrypt a line: ciphertext and metadata. -/
def lineEncrypt (key : List Byte) (addr lgen : Nat) (data : BitVec 512) : BitVec 512 × BitVec 32 :=
  let ct := xtsEncUnit (lineK1 key) (aesEnc (lineK2 key) (lineBlock addr lgen 0)) (bvBytes 64 data)
  (BitVec.ofNat 512 (ofLE ct), macOfLine key addr lgen ct)

/-- Decrypt a line. -/
def lineDecrypt (key : List Byte) (addr lgen : Nat) (ct : BitVec 512) : BitVec 512 :=
  BitVec.ofNat 512 (ofLE (xtsDecUnit (lineK1 key) (aesEnc (lineK2 key) (lineBlock addr lgen 0)) (bvBytes 64 ct)))

/-- The key string K1 K2 of an entry as its MODE uses it (Table 3.2), from the store of a port's group. -/
def entryKey (ch : Chip) (p e : Nat) : List Byte :=
  let mode := ldMode (lineDesc ch e)
  let key := lineKey ch (groupOf p) e
  keyK1 mode key ++ keyK2 mode key

/-! ### Lookup (R180, R183, R189, R214) -/

/-- The enabled region that holds a line. -/
def findRegion (c : Cfg) (a : Nat) : Option (Nat × BitVec 256) :=
  c.regions.find? fun e => rgKind e.2 != 0 && rgFirst e.2 ≤ a && a ≤ rgLast e.2

/-- The key entry that a line takes; none while it lies in the window of a rekey (R189, R214), which a request taken before the
window became pending (`early`) does not meet. -/
def lineEntry (ch : Chip) (reg : BitVec 256) (a : Nat) (early : Bool := false) : Option Nat :=
  if !rgRekey reg then some (rgCkey reg)
  else
    match getLjob ch (rgJob reg) with
    | some j => if a < j.rb then some (rgNkey reg) else if a < j.re && !early then none else some (rgCkey reg)
    | none => some (rgCkey reg)

/-- Append a response to a lane's outputs of this step. -/
def respond (l : Lane) (r : FsPins) : Lane := { l with fs := l.fs ++ [r] }

def modLane (ch : Chip) (p : Nat) (a : Fin 2) (f : Lane → Lane) : Chip :=
  modLine ch p fun l => setLane l a (f (getLane l a))

def fsOkay (write : Bool) (tag : Nat) (data : BitVec 512) : FsPins :=
  { valid := true, write := write, tag := tag % 256, resp := 0, status := stOk, data := data }

/-- What lookup makes of a fabric request (Table 8.3). -/
inductive Looked where
  | refuse (status : Nat)
  /-- Held by a line window. -/
  | hold
  /-- A read above SWEEP: zeros at once. -/
  | zero
  | serve (region entry : Nat)
deriving DecidableEq, Repr

/-- The checks of Table 8.3, in order. -/
def lookup (ch : Chip) (p : Nat) (q : LineRequest) (early : Bool := false) : Looked :=
  let a := q.addr.toNat
  if halted ch then .refuse stHalted
  else if !portServes ch p then .refuse stDenied
  else if linePortOf ch.cfg a != p then .refuse stBadField
  else
    match findRegion ch.cfg a with
    | none => .refuse stDenied
    | some (r, reg) =>
      if rgKind reg != 1 then .refuse stDenied
      else if q.kidx.toNat &&& rgAmask reg != rgAval reg then .refuse stDenied
      else
        match lineEntry ch reg a early with
        | none => .hold
        | some e =>
          if ldState (lineDesc ch e) != ssActive then .refuse stKeyEmpty
          else if (getSweep ch r).bound ≤ a then (if q.write then .refuse stInitPending else .zero)
          else .serve r e

/-! ### Checked rounds of a line slice (R361, R364) -/

/-- A check of R361 fails in a line slice: FK_ROUND_CHECK from the round stage that disagreed, else from the slice. -/
def raiseLineRound (ch : Chip) (p : Nat) (f : LineFail) : Chip :=
  match f.site with
  | .stage k => raise ch (0x6800 + 9 * p + f.slice.val) fkRoundCheck (ctxPlain k.val)
  | .multiply => raise ch (srcLineSlice p f.slice) fkRoundCheck (ctxPlain 0)
  | .fold => raise ch (srcLineSlice p f.slice) fkRoundCheck (ctxPlain 0)

/-- The rounds in which a line's blocks have been computed: the failures met, the line slots that retries took, and how often a
block has failed. -/
structure LineTries where
  met : List LineFail := []
  slots : Nat := 0
  worst : Nat := 0

/-- A block still to be computed: the failures it is given, and the slices it has failed on. -/
structure TriedBlock where
  fails : List LineFail
  on : List (Fin 9) := []

/-- The rounds of R362 on a line's blocks (R364), at most three: the first on active slices; a retry on the standby slice where there
is one, a single block failed and it has not failed there, and else in a line slot, on an active slice on which the block has not
failed. A failure elsewhere than its round runs is none. -/
def lineRounds (standby : Option Nat) (active : Nat → Bool) : Nat → Bool → List TriedBlock → LineTries → LineTries
  | 0, _, _, t => t
  | n + 1, retry, todo, t =>
    let spare := match todo, standby with
      | [b], some s => if retry && !b.on.any (·.val = s) then some s else none
      | _, _ => none
    let here (b : TriedBlock) (i : Fin 9) : Bool := match spare with
      | some s => i.val = s
      | none => active i && !b.on.contains i
    let bad := todo.filterMap fun b => match b.fails with
      | f :: rest => if here b f.slice then some (f, { fails := rest, on := f.slice :: b.on : TriedBlock }) else none
      | [] => none
    let t := { t with slots := if retry && spare.isNone then t.slots + 1 else t.slots }
    if bad.isEmpty then t
    else lineRounds standby active n true (bad.map (·.2)) { t with met := t.met ++ bad.map (·.1), worst := t.worst + 1 }

/-- The rounds of a line of a port (DEDUCED, log entry 133: a port's slices share a line's blocks, and which serves which is not
given). -/
def lineTries (ch : Chip) (p addr : Nat) (fails : List LineFail) : LineTries :=
  let of (b : Fin 4) : TriedBlock := { fails := fails.filter fun f => f.addr.toNat = addr && f.block = b }
  lineRounds (standbyLine ch p) (fun i => unitEff (getUnit ch (srcLineSlice p i)) = .active) 3 false ([0, 1, 2, 3].map of) {}

/-- CONTEXT of a message that concerns a line of a region: its tenant (R350, R362). -/
def lineCtx (ch : Chip) (r : Nat) : BitVec 32 :=
  let reg := regionOf ch.cfg r
  if rgKind reg = 1 then ctxTenant (rgTenant reg) 0 else ctxPlain 0

/-- Pass a line's blocks through the slices (R364): each failure is reported, and each retry slot holds FQ_READY (a write) or
MD_READY (a read) low for one line cycle. A block that fails on three slices raises FK_RETRY_LIMIT, which names the tenant, and the
line does not go on. -/
def passLine (ch : Chip) (p : Nat) (o : LineOp) (read : Bool) (fails : List LineFail) : Chip × Bool :=
  let tr := lineTries ch p o.addr fails
  let ch := tr.met.foldl (fun ch f => raiseLineRound ch p f) ch
  let stallTo (old : Nat) : Nat := if tr.slots = 0 then old else max old ch.cycle + 2 * tr.slots
  let ch := modLine ch p fun l => if read then { l with mdStall := stallTo l.mdStall } else { l with fqStall := stallTo l.fqStall }
  if 3 ≤ tr.worst then (raise ch (srcLine p) fkRetryLimit (lineCtx ch o.region), false) else (ch, true)

/-- A request goes to its lane's queue toward the controller, or is held with the block that failed. -/
def queueOp (ch : Chip) (p : Nat) (a : Fin 2) (o : LineOp) (fails : List LineFail) : Chip :=
  let c := if o.write then passLine ch p o false fails else (ch, true)
  modLane c.1 p a fun l =>
    if !c.2 then { l with stuck := l.stuck ++ [o] }
    else if o.kind = .host then { l with mq := l.mq ++ [o] }
    else { l with bg := l.bg ++ [o] }

/-! ### Background work (R191, R192, R215, R216) -/

/-- A lane's background requests that are under way. -/
def laneBg (l : Lane) : List LineOp := l.bg ++ l.stuck ++ l.reads

/-- Lines of a region's background operations that are under way. -/
def busyLines (ch : Chip) (r : Nat) (k : LineKind) : List Nat :=
  ch.lines.flatMap fun e =>
    ((laneBg e.2.lane0 ++ laneBg e.2.lane1).filter fun o => o.kind = k && o.region = r).map (·.addr)

/-- The lowest line from `a` on that is not in a list. -/
def firstFree : Nat → Nat → List Nat → Nat
  | 0, a, _ => a
  | n + 1, a, busy => if busy.contains a then firstFree n (a + 1) busy else a

/-- The next line a sweep writes. -/
def sweepNext (ch : Chip) (r : Nat) : Nat :=
  let w := getSweep ch r
  let busy := busyLines ch r .sweep ++ w.taken
  firstFree (busy.length + 1) w.bound busy

/-- The next line a job reads. -/
def rekeyNext (ch : Chip) (j : LineJob) : Nat :=
  let busy := busyLines ch j.region .rekey ++ j.done
  firstFree (busy.length + 1) j.rb busy

/-- No more background requests of a kind wait on a port than the budget lets through (R192), and its slices may work (R379). -/
def bgAllowed (ch : Chip) (p : Nat) (k : LineKind) : Bool :=
  let l := getLine ch p
  portServes ch p && 0 < activeLine ch p && l.clk &&
    ((l.lane0.bg ++ l.lane1.bg ++ l.lane0.reads ++ l.lane1.reads).filter fun o => o.kind = k).length < sweepShare ch.cfg

/-- A sweep has a line to write on a port. -/
def sweepReady (ch : Chip) (r p : Nat) : Bool :=
  let reg := regionOf ch.cfg r
  rgKind reg != 0 && (getSweep ch r).state = 1 && sweepNext ch r ≤ rgLast reg && linePortOf ch.cfg (sweepNext ch r) = p

/-- Every port that a job's region uses serves: a fence, a disable or a reset of one pauses the job (R217). Its accesses on other ports
that are under way end as they would, and a pending window stays pending (DESIGN CHOICE, log entry 159). -/
def jobPortsServe (ch : Chip) (j : LineJob) : Bool :=
  (List.range 32).all fun p => !regionUsesPort ch.cfg j.region p || portServes ch p

/-- A job has a line to read on a port. A pause lets an open window finish (R302). -/
def rekeyReady (ch : Chip) (j : LineJob) (p : Nat) : Bool :=
  j.win = 2 && jobPortsServe ch j && rekeyNext ch j < j.re && linePortOf ch.cfg (rekeyNext ch j) = p

/-- The job of a region. -/
def regionJob (ch : Chip) (r : Nat) : Option (Nat × LineJob) :=
  let reg := regionOf ch.cfg r
  if rgRekey reg then (getLjob ch (rgJob reg)).map fun j => (rgJob reg, j) else none

/-- Background work has a line to issue on a port. -/
def bgDue (ch : Chip) (p : Nat) : Bool :=
  !halted ch && ch.cfg.regions.any fun e =>
    (bgAllowed ch p .sweep && sweepReady ch e.1 p) ||
      (bgAllowed ch p .rekey && match regionJob ch e.1 with | some (_, j) => rekeyReady ch j p | none => false)

/-! ### Serving the fabric -/

/-- An entry's CLEARING will record no retirement. -/
def markLineSilent (ch : Chip) (e : Nat) : Chip := { ch with keys := { ch.keys with lsilent := e :: ch.keys.lsilent } }

/-- A line key entry is read (R116, R181): bad bytes are corrected and written back, or the entry is emptied through CLEARING. -/
def scrubEntry (ch : Chip) (e : Nat) (bad : List (Fin 80)) : Chip :=
  let d := lineDesc ch e
  let tv := some (ldTenant d)
  if bad.isEmpty then ch
  else if correctable bad then
    if ldState d = ssEmpty then ch else event ch 0x0302 0 tv [(e, 20), (badBytes bad, 8), (1, 1)]
  else if ldState d = ssActive || ldState d = ssRetiring then
    event (markLineSilent (clearEntry ch e) e) 0x0303 1 tv [(e, 20), (1, 1)]
  else ch

/-- The stored bytes of an entry that read wrong in this step. -/
def entryBad (bad : List (Fin 4096 × Fin 80)) (e : Nat) : List (Fin 80) := (bad.filter fun x => x.1.val = e).map (·.2)

/-- The key of an entry for a port: one that the group's registers do not hold is read from the store, where it can be found lost
(R183, R116). -/
def readEntry (ch : Chip) (p e : Nat) (bad : List (Fin 4096 × Fin 80)) : Chip × Bool :=
  if (Tbl.get [] ch.keys.lregs (groupOf p)).contains e then (ch, true)
  else (scrubEntry ch e (entryBad bad e), correctable (entryBad bad e))

/-- A fabric request is refused (Table 8.3). -/
def refuseLine (ch : Chip) (p : Nat) (a : Fin 2) (q : LineRequest) (st : Nat) : Chip :=
  modLine ch p fun l =>
    { setLane l a (respond (getLane l a) (fsError q.write q.tag.toNat st)) with refused := satInc 16 l.refused }

/-- Look a fabric request up and send it on (R180). One whose key is found lost is refused as check 7 refuses an entry that is not
ACTIVE (DEDUCED, log entry 147). -/
def lookupRequest (ch : Chip) (p : Nat) (x : WaitingLine) (met : LineMeets) : Chip :=
  let q := x.req
  let a := x.lane
  let addr := q.addr.toNat
  match lookup ch p q x.early with
  | .refuse st => refuseLine ch p a q st
  | .hold => modLane ch p a fun l => { l with held := l.held ++ [q] }
  | .zero => modLane ch p a fun l => respond l (fsOkay false q.tag.toNat 0)
  | .serve r e =>
    let lgen := ldLgen (lineDesc ch e)
    let key := entryKey ch p e
    let rd := readEntry ch p e met.bad
    if !rd.2 then refuseLine rd.1 p a q stKeyEmpty
    else
      let enc := if q.write then lineEncrypt key addr lgen q.data else (0, 0)
      let op : LineOp :=
        { kind := .host, write := q.write, addr := addr, tag := q.tag.toNat, data := enc.1, metadata := enc.2, region := r
          entry := e, lgen := lgen, key := key, gen := ch.admitGen }
      queueOp (touchReg (setLineInflight rd.1 e (lineInflight rd.1 e + 1)) (groupOf p) e) p a op met.fails

/-- Lines that a port's queue toward the controller holds, and those that rekey reads under way will bring (R19). -/
def laneLines (l : Lane) : Nat := l.mq.length + l.bg.length + (l.reads.filter fun o => o.kind = .rekey).length

/-- Lines in the port's queue toward the controller. -/
def queuedLines (ch : Chip) (p : Nat) : Nat := laneLines (getLine ch p).lane0 + laneLines (getLine ch p).lane1

/-- The queue toward the controller, of 32 lines, has room (R19). -/
def lineRoom (ch : Chip) (p : Nat) : Bool := queuedLines ch p < 32

/-- The port takes one more background request of a kind. -/
def bgRoom (ch : Chip) (p : Nat) (k : LineKind) : Bool := bgAllowed ch p k && lineRoom ch p

/-- It has room for a request of the fabric: within the budget, background work that is due takes a place first (R192). -/
def hostRoom (ch : Chip) (p : Nat) : Bool := queuedLines ch p + (if bgDue ch p then 1 else 0) < 32

/-- A port has no slice that may work, and takes nothing meanwhile (R379): its last active one is being reset. Under HALT it answers
all the same (R199). -/
def lineStalled (ch : Chip) (p : Nat) : Bool := !halted ch && portServes ch p && activeLine ch p = 0

/-- An entry that the lookup of a request reads disagrees with its inverted copy, so that its value is not used (R392): the
request waits. -/
def lineClash (ch : Chip) (p : Nat) (q : LineRequest) (early : Bool := false) : Option (Nat × Nat) :=
  match findRegion ch.cfg q.addr.toNat with
  | none => none
  | some (r, reg) =>
    (regionClash ch (groupOf p) r).orElse fun _ => (lineEntry ch reg q.addr.toNat early).bind (lineKeyClash ch)

/-- What the comparators find in the lookups of a port is reported (R392). -/
def raiseLineClashes (ch : Chip) (p : Nat) : Chip :=
  let l := getLine ch p
  ((l.lane0.held ++ l.lane1.held).filterMap (lineClash ch p) ++ l.fq.filterMap fun x => lineClash ch p x.req x.early).foldl raiseShadow ch

/-- Held requests of a lane that RB has passed are judged (R214), as far as the queue has room. -/
def releaseLane (ch : Chip) (p : Nat) (met : LineMeets) (a : Fin 2) : Chip :=
  let r := (getLane (getLine ch p) a).held.foldl (fun (acc : Chip × List LineRequest) q =>
    if lookup acc.1 p q = .hold || (lineClash acc.1 p q).isSome || !hostRoom acc.1 p then (acc.1, acc.2 ++ [q])
    else (lookupRequest acc.1 p { lane := a, req := q } met, acc.2)) (ch, [])
  modLane r.1 p a fun l => { l with held := r.2 }

/-- A request that waits for its lookup goes on: none of its lane waits before it, the queue has room, and so has the hold
queue if it must wait there. -/
def lookupNow (ch : Chip) (p : Nat) (before : List WaitingLine) (x : WaitingLine) : Bool :=
  !(before.any fun y => y.lane = x.lane) && (lineClash ch p x.req x.early).isNone && hostRoom ch p &&
    !(lookup ch p x.req x.early = .hold && 32 ≤ (getLane (getLine ch p) x.lane).held.length)

/-- Look up what a port has taken, oldest first: what a window held, then the requests that wait. -/
def serveLine (met : LineMeets) (ch : Chip) (p : Nat) : Chip :=
  if lineStalled ch p then ch
  else
    let ch := raiseLineClashes ch p
    let ch := [0, 1].foldl (fun ch a => releaseLane ch p met a) ch
    let r := (getLine ch p).fq.foldl (fun (acc : Chip × List WaitingLine) x =>
      if lookupNow acc.1 p acc.2 x then (lookupRequest acc.1 p x met, acc.2) else (acc.1, acc.2 ++ [x])) (ch, [])
    modLine r.1 p fun l => { l with fq := r.2 }

/-- Responses of an earlier step leave the pins. -/
def clearFs (ch : Chip) (p : Nat) (a : Fin 2) : Chip := modLane ch p a fun l => { l with fs := [] }

/-- FQ_READY is low on a lane: its hold queue (R214) or the port's request queue (R19) is full, a slot goes to a retry
(R364), or no slice may work (R379). Under HALT it stays asserted (R199). -/
def fqLow (ch : Chip) (p : Nat) (a : Fin 2) : Bool :=
  let l := getLine ch p
  !halted ch && (32 ≤ (getLane l a).held.length || 32 ≤ l.fq.length || ch.cycle < l.fqStall || lineStalled ch p)

/-- The lane that carries a background access (DESIGN CHOICE, log entry 22). -/
def bgLane (a : Nat) : Fin 2 := if a % 2 = 0 then 0 else 1

/-- A tag with bit 8 set that no own request of the lane carries. -/
def freeTag (l : Lane) : Nat :=
  ((List.range 256).find? fun t =>
    !((laneBg l).any fun o => o.tag = 256 + t) && !l.aborted.contains (256 + t)).getD 0 + 256

/-- Issue one background access on a port. -/
def issueLine (ch : Chip) (p : Nat) (o : LineOp) (fails : List LineFail) : Chip :=
  let a := bgLane o.addr
  queueOp (touchReg ch (groupOf p) o.entry) p a { o with tag := freeTag (getLane (getLine ch p) a) } fails

/-- An access of Dolha's own to a VITAL region enters the line slices (R184, R192): to a line that is initialised, on the line's port,
while the background budget has a place and no window holds the line. What makes one is not given (DESIGN CHOICE, log entry 122). -/
def issueOwn (met : LineMeets) (ch : Chip) (p : Nat) : Chip :=
  match met.own with
  | none => ch
  | some o =>
    let reg := regionOf ch.cfg o.region
    let a := o.addr.toNat
    if halted ch || rgKind reg != 2 || a < rgFirst reg || rgLast reg < a || (getSweep ch o.region).bound ≤ a ||
        linePortOf ch.cfg a != p || !bgRoom ch p .own then ch
    else
      match lineEntry ch reg a with
      | none => ch
      | some e =>
        let rd := readEntry ch p e met.bad
        if !rd.2 || ldState (lineDesc ch e) != ssActive then rd.1
        else
          let lgen := ldLgen (lineDesc ch e)
          let key := entryKey ch p e
          let enc := if o.write then lineEncrypt key a lgen o.data else (0, 0)
          issueLine rd.1 p { kind := .own, write := o.write, addr := a, tag := 0, data := enc.1, metadata := enc.2
                             region := o.region, entry := e, lgen := lgen, key := key, gen := ch.admitGen } met.fails

/-- LINE_REQUEST. A request shows that the clock runs. -/
def execLineRequest (p : Fin 32) (lane : Fin 2) (q : LineRequest) (met : LineMeets) (s : State) : Out :=
  onChip s fun ch =>
    let ch := modLine ch p fun l => { l with clk := true }
    if fqLow ch p lane then ch
    else
      let ch := issueOwn met (clearFs ch p lane) p
      serveLine met (modLine ch p fun l => { l with fq := l.fq ++ [{ lane := lane, req := q }] }) p

/-! ### The end of line requests -/

/-- Retire an entry (R298, R217). -/
def retireEntry (ch : Chip) (e : Nat) : Chip :=
  checkEntry (setLineDesc ch e (setFld (setFld (lineDesc ch e) 125 3 ssRetiring) 102 1 0)) e

/-- The owner's default BUDGET of a MODE for a tenant, or the factory value (R126). -/
def defaultBudget (ch : Chip) (t mode : Nat) : Nat :=
  let b := bits (tenantCfg ch.cfg t).budgets.toNat (24 * (mode - 1)) 24
  if b != 0 then b else if mode ≤ 4 then 0x100000 else 0xFFFFFF

/-- A line key descriptor (Table 8.4). -/
def mkLineDesc (state tenant lgen mode : Nat) (vital bound : Bool) (budget : Nat) : BitVec 128 :=
  BitVec.ofNat 128 (field 125 3 state ||| field 115 10 tenant ||| field 107 8 lgen ||| field 104 3 mode |||
    field 103 1 (if vital then 1 else 0) ||| field 102 1 (if bound then 1 else 0) ||| field 52 24 budget)

/-- Fill an entry with a key of a MODE, stored under CK in every group (R106, R181). -/
def fillEntry (ch : Chip) (e tenant mode : Nat) (vital bound : Bool) (budget : Nat) (key : List Byte) : Chip :=
  match ch.keys.ck with
  | none => ch
  | some ck =>
    let d := mkLineDesc ssActive tenant (ldLgen (lineDesc ch e)) mode vital bound budget
    fillKeep (storeLine (setLineDesc ch e d) ck e key)

/-- Draw a fresh line key into an entry (R184, R218, R219). -/
def drawEntry (ch : Chip) (e tenant mode : Nat) (vital bound : Bool) : Chip :=
  let g := drawBytes ch (keyBytesOf mode)
  fillEntry g.2 e tenant mode vital bound (defaultBudget ch tenant mode) g.1

/-! ### Line jobs (R213, R218, R219) -/

/-- Line jobs that run. -/
def lineJobs (ch : Chip) : Nat := (ch.ljobs.filter (·.2.isSome)).length

/-- KEEP keys with `extra` more (R183). -/
def keepRoom (ch : Chip) (reg : BitVec 256) : Bool :=
  (keepEntries ch.cfg).length + (if rgKeep reg then 1 else 2) ≤ 56

/-- Why a line job on a region cannot start: the rows of R213 that need no successor. -/
def jobRefusal (ch : Chip) (r : Nat) : Option Nat :=
  let reg := regionOf ch.cfg r
  if rgRekey reg || (getSweep ch r).state != 0 || 256 ≤ lineJobs ch then some stBusy else none

/-- A job's window becomes pending: the requests for its lines that wait for their lookup were taken before (R214). -/
def putWindow (ch : Chip) (n : Nat) (j : LineJob) : Chip :=
  let ch := setLjob ch n (some j)
  let mark (x : WaitingLine) : WaitingLine :=
    if j.win = 1 && j.rb ≤ x.req.addr.toNat && x.req.addr.toNat < j.re then { x with early := true } else x
  { ch with lines := Tbl.mapVals {} (fun _ l => { l with fq := l.fq.map mark }) ch.lines }

/-- The window of a job from RB (R214): pending, unless the job is paused. -/
def nextLineWindow (ch : Chip) (j : LineJob) : LineJob :=
  let last := rgLast (regionOf ch.cfg j.region)
  if j.rb ≤ last && !j.paused then { j with win := 1, re := min (j.rb + lwin ch.cfg) (last + 1) }
  else { j with win := 0, re := j.rb }

/-- The next window of a job. -/
def openNext (ch : Chip) (n : Nat) (j : LineJob) : Chip := putWindow ch n (nextLineWindow ch j)

/-- A region write, as one generation; the KEEP keys are held in every group's registers (R183, R221). -/
def writeRegion (ch : Chip) (r : Nat) (reg : BitVec 256) : Chip := fillKeep (newGeneration ch fun c => setRegion c r reg)

/-- Start a line job with its successor (R213): one configuration write, and RB at the first line. -/
def startLineJob (ch : Chip) (r nkey : Nat) : Chip :=
  let reg := regionOf ch.cfg r
  let job := ((List.range 256).find? fun j => (getLjob ch j).isNone).getD 0
  let reg' := setFld (setFld (setFld (setFld reg 106 12 nkey) 58 8 job) 68 1 1) 69 1 1
  let ch := writeRegion ch r reg'
  let ch := setLineDesc ch nkey (setFld (lineDesc ch nkey) 102 1 1)
  let j : LineJob := { region := r, rb := rgFirst reg, re := rgFirst reg, win := 0, done := [], paused := false, swapAt := none }
  openNext ch job j

/-- An entry that lies in some tenant's line quota. -/
def entryInQuota (c : Cfg) (e : Nat) : Bool :=
  c.tenants.any fun t => t.2.lkeyBase ≤ e && e < t.2.lkeyBase + t.2.lkeySize

/-- The entry into which the key loader draws a successor (R218, R219). -/
def drawTarget (ch : Chip) (reg : BitVec 256) : Option Nat :=
  let free (e : Nat) : Bool := ldState (lineDesc ch e) = ssEmpty
  if rgKind reg = 2 then ((List.range 0xFF8).reverse.find? fun e => free e && !entryInQuota ch.cfg e)
  else
    let t := tenantCfg ch.cfg (rgTenant reg)
    ((List.range t.lkeySize).map (t.lkeyBase + ·)).find? free

/-- Draw the successor and start the job. -/
def drawAndStart (ch : Chip) (r e : Nat) : Chip :=
  let reg := regionOf ch.cfg r
  let mode := ldMode (lineDesc ch (rgCkey reg))
  startLineJob (drawEntry ch e (rgTenant reg) mode (rgKind reg = 2) false) r e

/-- Named fields of a line event: the tenant, except for VITAL regions. -/
def regionTv (reg : BitVec 256) : Option Nat := if rgKind reg = 2 then none else some (rgTenant reg)

/-- Automatic re-encryption at the usage budget (R218, R219). A start that cannot be made is tried again every second; one that only
meets two live generations, a handover (R447) or a random unit that is not seeded (R404) records nothing and waits likewise. -/
def autoRekey (ch : Chip) (r : Nat) : Chip :=
  let reg := regionOf ch.cfg r
  let wait (ch : Chip) : Chip := { ch with quince := { ch.quince with
    noKey := (ch.quince.noKey.filter fun (x : Nat × Nat) => x.1 != r) ++ [(r, nowUs ch)] } }
  let noKey (ch : Chip) : Chip := event ch 0x0609 0 (regionTv reg) [(r, 12), (0, 20)]
  if rgKind reg = 0 || rgRekey reg then ch
  else
    match drawTarget ch reg with
    | none => if rgKind reg = 2 then noKey ch else wait (noKey ch)
    | some e =>
      if (jobRefusal ch r).isSome || !keepRoom ch reg || ch.keys.ck.isNone then wait (noKey ch)
      else if ch.live2 || ch.fw.handover || !ch.rng.seeded then wait ch
      else drawAndStart { ch with quince := { ch.quince with noKey := ch.quince.noKey.filter fun (x : Nat × Nat) => x.1 != r } } r e

/-- Blocks processed under a line key: four for each line read or written (R181, R126); at the budget a re-encryption
starts (R218). -/
def lineUsage (ch : Chip) (e lgen : Nat) : Chip :=
  let d := lineDesc ch e
  if ldState d = ssEmpty || ldLgen d != lgen then ch
  else
    let old := ldUsage d
    let new := satAdd 52 old 4
    let ch := setLineDesc ch e (setFld d 0 52 new)
    let budget := ldBudget d * 2 ^ 20
    if old < budget && budget ≤ new then
      let ch := event ch 0x0304 0 (some (ldTenant d)) [(e, 20), (lgen, 8), (1, 1)]
      match ch.cfg.regions.find? fun x => rgKind x.2 != 0 && rgCkey x.2 = e && !rgRekey x.2 with
      | some (r, _) => autoRekey ch r
      | none => ch
    else ch

/-- A fabric request is answered: its in-flight count and USAGE. -/
def endLineOp (ch : Chip) (o : LineOp) : Chip :=
  let ch := lineUsage ch o.entry o.lgen
  if o.kind = .host then leaveEntry ch o.entry else ch

/-! ### Boundaries -/

/-- Advance a boundary past the lines that are done. -/
def advance : Nat → Nat → List Nat → Nat
  | 0, b, _ => b
  | n + 1, b, done => if done.contains b then advance n (b + 1) done else b

/-- The held requests of every port that RB has passed are judged (R214). -/
def releaseHeld (ch : Chip) (met : LineMeets) : Chip := (ch.lines.map (·.1)).foldl (serveLine met) ch

/-- A line of a job's window is done (written or skipped): RB advances, the window closes at RE, and the next is pending;
past the last line the swap is due (R215, R217). -/
def rekeyLineDone (met : LineMeets) (ch : Chip) (r a : Nat) : Chip :=
  let reg := regionOf ch.cfg r
  if !rgRekey reg then ch
  else
    match getLjob ch (rgJob reg) with
    | none => ch
    | some j =>
      if a < j.rb || j.re ≤ a then ch
      else
        let done := if j.done.contains a then j.done else a :: j.done
        let rb := advance (done.length + 1) j.rb done
        let j := { j with rb := rb, done := done.filter (rb ≤ ·) }
        let n := rgJob reg
        let ch := if rb != j.re then setLjob ch n (some j)
          else if rgLast reg < rb then setLjob ch n (some { j with win := 0, swapAt := some (nowUs ch) })
          else openNext ch n j
        releaseHeld ch met

/-- A sweep write is taken: SWEEP advances, and past the last line the region is READY (R191). Writes already issued count
under a pause (R296). -/
def sweepLineTaken (ch : Chip) (r a : Nat) : Chip :=
  let w := getSweep ch r
  let reg := regionOf ch.cfg r
  if w.state = 0 || a < w.bound || rgKind reg = 0 then ch
  else
    let taken := if w.taken.contains a then w.taken else a :: w.taken
    let b := advance (taken.length + 1) w.bound taken
    let w := { w with bound := b, taken := taken.filter (b ≤ ·) }
    if rgLast reg < b then
      event (setSweep ch r { w with state := 0, taken := [], byPort := [] }) 0x0502 0 (regionTv reg) [(r, 12)]
    else setSweep ch r w

/-! ### The controller -/

/-- Background stamps of the last 32 line cycles, as 64 core cycles (DESIGN CHOICE, log entry 22). -/
def recentStamps (ch : Chip) (ts : List Nat) : List Nat := ts.filter fun t => ch.cycle < t + 64

/-- The budget of R192 lets a background request take the next slot; rekey reads have their own share of the read slots
(R216). -/
def inBudget (ch : Chip) (l : LinePort) (o : LineOp) : Bool :=
  (recentStamps ch (if o.write then l.bgWrites else l.bgReads)).length < sweepShare ch.cfg

/-- The background request that takes the next slot of a lane (R216): Dolha's own VITAL accesses first, then sweep and rekey
in turn. -/
def bgHead (ch : Chip) (l : LinePort) (a : Fin 2) : Option LineOp :=
  let pick (k : LineKind) := (getLane l a).bg.find? fun o => o.kind = k && inBudget ch l o
  let turn := if l.lastSweep then (pick .rekey).orElse fun _ => pick .sweep else (pick .sweep).orElse fun _ => pick .rekey
  (pick .own).orElse fun _ => turn

/-- The request that drives MQ_ on a lane: within the budget, background requests go before those of the fabric (R192). -/
def mqHead (ch : Chip) (p : Nat) (a : Fin 2) : Option LineOp :=
  let l := getLine ch p
  (bgHead ch l a).orElse fun _ => (getLane l a).mq.head?

/-- The controller takes a request off MQ_: a background one counts against its budget. -/
def takeMq (ch : Chip) (p : Nat) (a : Fin 2) (o : LineOp) : Chip :=
  if o.kind = .host then modLane ch p a fun l => { l with mq := l.mq.erase o }
  else
    let ch := modLane ch p a fun l => { l with bg := l.bg.erase o }
    modLine ch p fun l =>
      { l with
        bgWrites := if o.write then recentStamps ch l.bgWrites ++ [ch.cycle] else l.bgWrites
        bgReads := if o.write then l.bgReads else recentStamps ch l.bgReads ++ [ch.cycle]
        lastSweep := if o.kind = .own then l.lastSweep else decide (o.kind = .sweep) }

/-- LINE_WRITE_TAKEN: the request on MQ is a write and is taken (R175). -/
def execLineWriteTaken (p : Fin 32) (lane : Fin 2) (met : LineMeets) (s : State) : Out :=
  onChip s fun ch =>
    match mqHead ch p lane with
    | some o =>
      if halted ch || !o.write then ch
      else
        let ch := endLineOp (takeMq (clearFs ch p lane) p lane o) o
        let ch := match o.kind with
          | .host => modLane ch p lane fun l => respond l (fsOkay true o.tag 0)
          | .sweep => sweepLineTaken ch o.region o.addr
          | .rekey => rekeyLineDone met ch o.region o.addr
          | .own => ch
        serveLine met (issueOwn met ch p) p
    | none => ch

/-- LINE_READ_REQUEST_TAKEN: the request on MQ is a read and is taken; its tweak waits in the tweak store (R196). -/
def execLineReadRequestTaken (p : Fin 32) (lane : Fin 2) (met : LineMeets) (s : State) : Out :=
  onChip s fun ch =>
    match mqHead ch p lane with
    | some o =>
      if halted ch || o.write then ch
      else
        let ch := modLane (takeMq (clearFs ch p lane) p lane o) p lane fun l => { l with reads := l.reads ++ [o] }
        serveLine met (issueOwn met ch p) p
    | none => ch

/-- Outcome of a read by its ECC status and MAC (R188): 0 OKAY, 1 MAC failure, 2 bad ECC. -/
def readOutcome (o : LineOp) (d : LineReturn) : Nat :=
  if 2 ≤ d.ecc.toNat then 2
  else if macOfLine o.key o.addr o.lgen (bvBytes 64 d.data) = d.metadata then 0 else 1

/-- A MAC failure in a TENANT region (R189, R238). -/
def lineAuthFail (ch : Chip) (p : Nat) (reg : BitVec 256) (o : LineOp) : Chip :=
  let ch := modLine ch p fun l => { l with auth := satInc 16 l.auth }
  let ch := event ch 0x0501 0 (some (rgTenant reg)) [(o.region, 12), (o.addr, 46), (o.entry, 12), (o.lgen, 8)]
  authFail ch (rgTenant reg) true

/-- The answer to a read of the fabric (Table 8.6). -/
def hostReadData (ch : Chip) (p : Nat) (a : Fin 2) (o : LineOp) (d : LineReturn) : Chip :=
  let reg := regionOf (cfgOf ch o.gen) o.region
  let out := readOutcome o d
  let r : FsPins :=
    if out = 0 then fsOkay false o.tag (lineDecrypt o.key o.addr o.lgen d.data)
    else if out = 1 then fsError false o.tag stAuthFail
    else { fsOkay false o.tag 0 with resp := 1 }
  let ch := modLane ch p a fun l => respond l r
  if out = 1 then lineAuthFail ch p reg o
  else if out = 2 then modLine ch p fun l => { l with ecc := satInc 16 l.ecc }
  else ch

/-- What a bad read of a VITAL region by Dolha itself comes to (Table 8.6, R190). -/
def vitalReadFail (ch : Chip) (p out : Nat) : Chip :=
  if out = 1 then raise ch (srcLine p) fkLineVital (ctxPlain 0)
  else
    raise (modLine ch p fun l => { l with ecc := satInc 16 l.ecc }) (srcLine p) fkLineEcc (ctxPlain 0)

/-- The data of a rekey read (R215): written back under NKEY, or the line is skipped. -/
def rekeyReadData (ch : Chip) (p : Nat) (a : Fin 2) (o : LineOp) (d : LineReturn) (met : LineMeets) : Chip :=
  let reg := regionOf ch.cfg o.region
  let vital := decide (rgKind reg = 2)
  let out := readOutcome o d
  if out = 0 then
    let e := rgNkey reg
    let lgen := ldLgen (lineDesc ch e)
    let key := entryKey ch p e
    let enc := lineEncrypt key o.addr lgen (lineDecrypt o.key o.addr o.lgen d.data)
    let w : LineOp := { o with write := true, data := enc.1, metadata := enc.2, entry := e, lgen := lgen, key := key,
                               gen := ch.admitGen }
    queueOp (touchReg ch (groupOf p) e) p a w met.fails
  else
    let ch :=
      if vital then vitalReadFail ch p out
      else if out = 1 then lineAuthFail ch p reg o
      else modLine ch p fun l => { l with ecc := satInc 16 l.ecc }
    let ch := if out = 2 then event ch 0x0608 0 (regionTv reg) [(o.region, 12), (o.addr, 46)] else ch
    rekeyLineDone met ch o.region o.addr

/-- The data of a read that is outstanding: it leaves the queue of read data in the step that takes it (R19; DEDUCED, log entry
170). -/
def takeReadData (ch : Chip) (p : Nat) (a : Fin 2) (o : LineOp) (d : LineReturn) (met : LineMeets) : Chip :=
  let c := passLine ch p o true met.fails
  if !c.2 then modLane c.1 p a fun l => { l with stuck := l.stuck ++ [o] }
  else
    let ch := endLineOp c.1 o
    match o.kind with
    | .host => hostReadData ch p a o d
    | .rekey => rekeyReadData ch p a o d met
    | .sweep => ch
    | .own => if readOutcome o d = 0 then ch else vitalReadFail ch p (readOutcome o d)

/-- LINE_READ_DATA: read data for an outstanding tag; that of an aborted read is discarded (R198, R199). While MD_READY is
low the controller holds it (R364, R379). -/
def execLineReadData (p : Fin 32) (lane : Fin 2) (d : LineReturn) (met : LineMeets) (s : State) : Out :=
  onChip s fun ch =>
    if !halted ch && (ch.cycle < (getLine ch p).mdStall || lineStalled ch p) then ch
    else
      let ch := issueOwn met (clearFs ch p lane) p
      let l := getLane (getLine ch p) lane
      let tag := d.tag.toNat
      if l.aborted.contains tag then modLane ch p lane fun l => { l with aborted := l.aborted.erase tag }
      else
        match takeFirst (fun o : LineOp => o.tag = tag) l.reads with
        | none => ch
        | some (o, rest) => takeReadData (modLane ch p lane fun l => { l with reads := rest }) p lane o d met

/-! ### Sweeps and rekeys (R191, R192, R214 to R217) -/

/-- SWEEP_WRITE: the next line of a sweeping region, 64 zero bytes under its current key (R191). A sweep whose CKEY entry is lost
meanwhile goes on (DESIGN CHOICE, log entry 144). -/
def execSweepWrite (r : Fin 4096) (met : LineMeets) (s : State) : Out :=
  onChip s fun ch =>
    let reg := regionOf ch.cfg r
    let a := sweepNext ch r
    let p := linePortOf ch.cfg a
    if halted ch || !sweepReady ch r p || !bgRoom ch p .sweep then ch
    else
      let e := rgCkey reg
      let lgen := ldLgen (lineDesc ch e)
      let key := entryKey ch p e
      let enc := lineEncrypt key a lgen 0
      let o : LineOp :=
        { kind := .sweep, write := true, addr := a, tag := 0, data := enc.1, metadata := enc.2, region := r, entry := e
          lgen := lgen, key := key, gen := ch.admitGen }
      issueLine (readEntry ch p e met.bad).1 p o met.fails

/-- No fabric request that overlaps a window and was taken before it became pending waits to be looked up or issued (R214). -/
def windowClear (ch : Chip) (j : LineJob) : Bool :=
  let within (a : Nat) : Bool := j.rb ≤ a && a < j.re
  !(ch.lines.any fun e =>
    ((e.2.lane0.mq ++ e.2.lane0.stuck ++ e.2.lane1.mq ++ e.2.lane1.stuck).any fun o =>
      o.kind = .host && o.region = j.region && within o.addr) ||
    e.2.fq.any fun x => x.early && within x.req.addr.toNat)

/-- LINE_WINDOW_OPEN. -/
def execLineWindowOpen (r : Fin 4096) (s : State) : Out :=
  onChip s fun ch =>
    match regionJob ch r with
    | some (n, j) =>
      if j.win = 1 && jobPortsServe ch j && windowClear ch j && !halted ch then setLjob ch n (some { j with win := 2 }) else ch
    | none => ch

/-- LINE_REKEY_READ: a read of the window's next line under CKEY. -/
def execLineRekeyRead (r : Fin 4096) (s : State) : Out :=
  onChip s fun ch =>
    match regionJob ch r with
    | none => ch
    | some (_, j) =>
      let a := rekeyNext ch j
      let p := linePortOf ch.cfg a
      if halted ch || !rekeyReady ch j p || !bgRoom ch p .rekey then ch
      else
        let e := rgCkey (regionOf ch.cfg r)
        issueLine ch p { kind := .rekey, write := false, addr := a, tag := 0, region := r, entry := e
                         lgen := ldLgen (lineDesc ch e), key := entryKey ch p e, gen := ch.admitGen } []

/-- The write that makes NKEY the current key (R217). -/
def swapKeys (ch : Chip) (r n : Nat) : Chip :=
  let reg := regionOf ch.cfg r
  let old := rgCkey reg
  let new := rgNkey reg
  let reg' := setFld (setFld (setFld (setFld reg 118 12 new) 106 12 0) 68 1 0) 58 8 0
  let ch := writeRegion ch r reg'
  let lgen := (ldLgen (lineDesc ch old) + 1) % 256
  let ch := retireEntry (setLjob ch n none) old
  event ch 0x0606 0 (regionTv reg) [(r, 12), (old, 20), (lgen, 8), (new, 20), (1, 1)]

/-- LINE_REKEY_SWAP, due once RB has passed the region, and again 10 µs after each ST_GEN_BUSY. -/
def execLineRekeySwap (r : Fin 4096) (s : State) : Out :=
  onChip s fun ch =>
    match regionJob ch r with
    | none => ch
    | some (n, j) =>
      match j.swapAt with
      | none => ch
      | some t =>
        if halted ch || nowUs ch < t then ch
        else if ch.live2 then setLjob ch n (some { j with swapAt := some (nowUs ch + 10) })
        else swapKeys ch r n

/-- The usage of a region's current key has reached its budget, which is why a re-encryption of it is due (R218). -/
def overBudget (ch : Chip) (r : Nat) : Bool :=
  let d := lineDesc ch (rgCkey (regionOf ch.cfg r))
  ldBudget d * 2 ^ 20 ≤ ldUsage d

/-- REKEY_NO_KEY_RETRY, due one second after the last try, while the condition lasts: not for a region whose key has been changed
meanwhile (R218). -/
def execRekeyNoKeyRetry (r : Fin 4096) (s : State) : Out :=
  onChip s fun ch =>
    match ch.quince.noKey.find? fun x => x.1 = r.val with
    | some (_, t) =>
      if halted ch || ch.fw.handover || nowUs ch < t + 1000000 then ch
      else
        let done := { ch with quince := { ch.quince with
          noKey := ch.quince.noKey.filter fun (x : Nat × Nat) => x.1 != r.val } }
        if overBudget ch r then autoRekey done r else done
    | none => ch

end Sys2Proof.Machine
end

