-- ==== Sys2Proof/Machine/Windows.lean ====
section
/-! DEFINITION. Live ranges between their commands (R203 to R211, 09_change.md): windows, the fetch queue, and the end of a
range. -/

namespace Sys2Proof.Machine

/-- Windows open or pending (R205). -/
def windowsOut (ch : Chip) : Nat := (ch.ranges.filter fun e => match e.2 with | some r => r.win.isSome | none => false).length

/-- W of a range (R205). -/
def windowUnits (ch : Chip) (r : Range) : Nat :=
  min (fetchUnits ch.cfg) (0x100000 / max 1 (unitBytes (dUsize (slotDesc ch r.o))))

/-- The range waits for a window: not paused, stopped or frozen. -/
def wantsWindow (r : Range) : Bool := decide (r.st = .opened) && r.win.isNone && decide (r.b ≤ r.hi)

/-- The job that takes the next window, in round robin of job number (R205). -/
def nextWindowJob (ch : Chip) : Option Nat :=
  let js := (ch.ranges.filter fun e => match e.2 with | some r => wantsWindow r | none => false).map (·.1)
  (js.find? (ch.rangeNext ≤ ·)).orElse fun _ => js.head?

/-- WINDOW_PENDING, due when a window is free under FETCH_OUT. -/
def execWindowPending (s : State) : Out :=
  onChip s fun ch =>
    if halted ch || fetchOut ch.cfg ≤ windowsOut ch then ch
    else
      match nextWindowJob ch with
      | none => ch
      | some j =>
        match getRange ch j with
        | none => ch
        | some r =>
          let w : Window := { e := min (r.b + windowUnits ch r) (r.hi + 1) }
          setRange { ch with rangeNext := (j + 1) % 4096 } j (some { r with st := .window, win := some w })

/-- A request not yet ended uses a slot of the range and overlaps units `b` to `e` (R206). -/
def overlaps (ch : Chip) (r : Range) (e : Nat) : Bool :=
  ch.ports.any fun p => p.2.reqs.any fun q =>
    ((reqSlots q).contains r.o || (reqSlots q).contains r.n) &&
      sbDunit q.sb < e && r.b < sbDunit q.sb + unitCount (dataLen q) (reqUnit q)

/-- A fetch descriptor (Table 9.3). -/
def fetchDescriptor (ch : Chip) (j : Nat) (r : Range) (w : Window) : BitVec 256 :=
  let u := unitBytes (dUsize (slotDesc ch r.o))
  BitVec.ofNat 256 (field 192 64 r.b ||| field 176 16 w.fseq ||| field 167 9 (w.e - r.b) ||| field 155 12 j |||
    field 145 10 r.tenant ||| field 125 20 r.o ||| field 117 8 r.ogen ||| field 97 20 r.n ||| field 89 8 r.ngen |||
    field 64 24 ((w.e - r.b) * u) ||| field 0 1 1)

/-- Queue the descriptor of a window, unless an entry of it remains unread, and raise the fetch cause (R206, R333). -/
def queueFetch (ch : Chip) (j : Nat) (r : Range) (w : Window) : Chip :=
  let ch := if ch.fetchQ.any fun (x : Nat × BitVec 256) => x.1 = j then ch
    else { ch with fetchQ := ch.fetchQ ++ [(j, fetchDescriptor ch j r w)] }
  attRaise ch 0x801 5

/-- WINDOW_OPEN, due when no request that overlaps the pending window remains. -/
def execWindowOpen (job : Fin 4096) (s : State) : Out :=
  onChip s fun ch =>
    match getRange ch job with
    | none => ch
    | some r =>
      match r.win with
      | none => ch
      | some w =>
        if halted ch || w.isOpen || overlaps ch r w.e then ch
        else
          let w := { w with isOpen := true, fseq := r.fseq, since := nowUs ch }
          let r := { r with win := some w, fseq := (r.fseq + 1) % 65536 }
          queueFetch (setRange ch job (some r)) job r w

/-- The state of a range whose window closes (Table 9.4, Table 13.5). -/
def afterWindow (r : Range) : Range :=
  { r with st := if r.pausing then .paused else .opened, win := none, pausing := false }

/-- Retire a slot (R201). -/
def retireSlot (ch : Chip) (k : Nat) : Chip :=
  if dState (slotDesc ch k) = ssActive then checkDrained (setDesc ch k (setFld (slotDesc ch k) 125 3 ssRetiring)) k else ch

/-- A range whose O is EMPTY is removed (R211). -/
def removeDone (ch : Chip) (j : Nat) (r : Range) : Chip :=
  let d := slotDesc ch r.o
  if decide (r.st = .done) && decide (dState d = ssEmpty) then
    event (setRange ch j none) 0x0606 0 (some r.tenant) [(j, 12), (r.o, 20), (dKgen d, 8), (r.n, 20), (0, 1)]
  else ch

/-- A range with B past HI enters DONE, and O retires (R211). -/
def finishRange (ch : Chip) (j : Nat) (r : Range) : Chip :=
  if r.hi < r.b then
    let r := { r with st := .done, win := none, pausing := false }
    removeDone (retireSlot (setRange ch j (some r)) r.o) j r
  else setRange ch j (some r)

/-- The window's units have been written back: B becomes E and the window closes (R208). -/
def windowWritten (ch : Chip) (j : Nat) (r : Range) (w : Window) : Chip :=
  finishRange (dropFetch ch j) j (afterWindow { r with b := w.e })

/-- A write of BRAMBLE_DONE (R208). -/
def brambleAck (ch : Chip) (data : Word64) : Chip :=
  let j := fld data 0 12
  let fseq := fld data 16 16
  let bad := event ch 0x0604 0 none [(j, 12), (fseq, 16)]
  match getRange ch j with
  | none => bad
  | some r =>
    match r.win with
    | some w => if w.outDone && w.fseq = fseq then windowWritten ch j r w else bad
    | none => bad

/-- The return that answers a window is still served: its BRAMBLE_OUT may go on. -/
def returnServed (ch : Chip) (job : Nat) (w : Window) : Bool :=
  ch.ports.any fun e => e.2.reqs.any fun q => q.job = some job && q.jobSeq = w.fseq && !q.dead

/-- FETCH_LIMIT_EXPIRY (R210): due FETCH_LIMIT after the window opened, or after the last BRAMBLE_OUT flit was driven. A
BRAMBLE_OUT that a fence or HOST_RST_N cut after its first flit has been driven as far as it ever will be (DEDUCED, log entry
136). -/
def execFetchLimitExpiry (job : Fin 4096) (s : State) : Out :=
  onChip s fun ch =>
    match getRange ch job with
    | none => ch
    | some r =>
      match r.win with
      | none => ch
      | some w =>
        let limit := w.since + 1000 * fetchLimitMs ch.cfg
        if halted ch || !w.isOpen || nowUs ch < limit then ch
        else if !w.outBegun then
          event (setRange (dropFetch ch job) job (some (afterWindow r))) 0x0602 0 (some r.tenant) [(job, 12), (w.fseq, 16)]
        else if w.outDone || !returnServed ch job w then
          let r := { r with win := some { w with since := limit } }
          let ch := event (setRange ch job (some r)) 0x0603 1 (some r.tenant) [(job, 12), (w.fseq, 16)]
          queueFetch ch job r w
        else ch

end Sys2Proof.Machine
end

