-- ==== Sys2Proof/Machine/KeyEvents.lean ====
section
/-! DEFINITION. What befalls stored keys and their guardians without a command (05_keys.md R116, R117, R128; 11_mailboxes.md
R251, R255): the scrubber, the end of CLEARING, and the officers' times. -/

namespace Sys2Proof.Machine

/-- KEY_SCRUB. -/
def execKeyScrub (k : KeyRef) (bad : List (Fin 80)) (s : State) : Out :=
  onChip s fun ch =>
    match k with
    | .slot n => scrubSlot ch n bad
    | .entry e => scrubEntry ch e bad

/-- A slot becomes EMPTY with KGEN advanced and every other field zero (R117); a range in DONE that it held up is removed
(R211). -/
def emptySlot (ch : Chip) (k : Nat) : Chip :=
  let d := slotDesc ch k
  let g := (dKgen d + 1) % 256
  let quiet := ch.keys.silent.contains k
  let ch := setDesc ch k (setFld 0 107 8 g)
  let ch := { ch with keys := { ch.keys with silent := ch.keys.silent.filter (· != k) } }
  let ch := if quiet then ch else event ch 0x0305 0 (some (dTenant d)) [(k, 20), (g, 8), (0, 1)]
  ch.ranges.foldl (fun ch e => match e.2 with | some r => if r.o = k then removeDone ch e.1 r else ch | none => ch) ch

/-- A line key entry becomes EMPTY (R117, R181). -/
def emptyEntry (ch : Chip) (e : Nat) : Chip :=
  let d := lineDesc ch e
  let g := (ldLgen d + 1) % 256
  let quiet := ch.keys.lsilent.contains e
  let ch := setLineDesc ch e (setFld 0 107 8 g)
  let ch := { ch with keys := { ch.keys with lsilent := ch.keys.lsilent.filter (· != e) } }
  if quiet then ch else event ch 0x0305 0 (some (ldTenant d)) [(e, 20), (g, 8), (1, 1)]

/-- KEY_CLEARING_DONE. -/
def execKeyClearingDone (k : KeyRef) (s : State) : Out :=
  onChip s fun ch =>
    match k with
    | .slot n => if dState (slotDesc ch n) = ssClearing then emptySlot ch n else ch
    | .entry e => if ldState (lineDesc ch e) = ssClearing then emptyEntry ch e else ch

/-- The second commit of a session is waiting for its vault record (R130). -/
def sessionBusy (ch : Chip) : Bool :=
  match ch.quince.exec with
  | some x => (match x.wait with | .dualKek .. => true | .dualGtk .. => true | _ => false)
  | none => false

/-- DUAL_SESSION_EXPIRY, due at the expiry of the open session; in a handover it waits for the firmware that takes up (R449). -/
def execDualSessionExpiry (s : State) : Out :=
  onChip s fun ch =>
    let n := ch.keys.session
    if sessionOpen n && n.expiry ≤ nowUs ch && !sessionBusy ch && !ch.fw.handover then endSession ch 1 else ch

/-- ENROL_ALLOW_EXPIRY, due at the end of the allowance; in a handover it waits for the firmware that takes up (R449). -/
def execEnrolAllowExpiry (o : Fin 2) (s : State) : Out :=
  onChip s fun ch =>
    let f := getOfficer ch o
    match f.allowUntil with
    | some t => if t ≤ nowUs ch && !ch.fw.handover then setOfficer ch o { f with allowUntil := none } else ch
    | none => ch

/-- OFFICER_LOCKOUT_END, due 60 s after the lockout began. -/
def execOfficerLockoutEnd (o : Fin 2) (s : State) : Out :=
  onChip s fun ch =>
    lockoutOver ch o

end Sys2Proof.Machine
end

