-- ==== Sys2Proof/Machine/Tenants.lean ====
section
/-! DEFINITION. Tenants between their commands (10_tenants.md): the end of a reset (R233, R235), the purge of a disable (R236,
R271), and the interval of the authentication count (R238). -/

namespace Sys2Proof.Machine

/-- Slots of a tenant's quota that are not EMPTY. -/
def quotaSlots (ch : Chip) (t : Nat) : List Nat :=
  let c := tenantCfg ch.cfg t
  (ch.keys.desc.filter fun e => c.slotBase ≤ e.1 && e.1 < c.slotBase + c.slotSize && dState e.2 != ssEmpty).map (·.1)

/-- ACTIVE KEK slots of a tenant. -/
def activeKeks (ch : Chip) (t : Nat) : List Nat :=
  (ch.keys.keks.filter fun e => e.1 / 16 = t && e.2.source != 0).map (·.1)

/-- Line key entries of a tenant that are not BOUND and not EMPTY. -/
def looseEntries (ch : Chip) (t : Nat) : List Nat :=
  (ch.keys.ldesc.filter fun e =>
    ldTenant e.2 = t && !ldVital e.2 && !ldBound e.2 && ldState e.2 != ssEmpty).map (·.1)

/-- A slot is purged: it passes through CLEARING. -/
def purgeSlot (ch : Chip) (k : Nat) : Chip :=
  if dState (slotDesc ch k) = ssClearing then ch else markSilent (startClearing ch k) k

/-- A line key entry is purged; one that requests in flight name drains first (R197). -/
def purgeEntry (ch : Chip) (e : Nat) : Chip :=
  if ldState (lineDesc ch e) = ssClearing then ch else retireEntry (markLineSilent ch e) e

/-- Start the purge of a disable (R236). -/
def startPurge (ch : Chip) (t : Nat) : Chip :=
  let slots := quotaSlots ch t
  let keks := activeKeks ch t
  let entries := looseEntries ch t
  let ch := modTenant ch t fun tn => { tn with purging := true, kekLeft := keks, purged := (slots.length, 0, entries.length) }
  let ch := slots.foldl purgeSlot ch
  let ch := entries.foldl purgeEntry ch
  keks.foldl (fun ch idx => vaultWrite ch (eraseRecord (.purge idx) 1 idx)) ch

/-- The response that waits for the sweep of a tenant is written (R272). -/
def answerReset (ch : Chip) (t us : Nat) : Chip :=
  match ch.quince.exec with
  | some x =>
    (match x.wait with
    | .sweep u old =>
      if u = t then
        let tn := getTenant ch t
        finishExec ch (okWith (rb 0x10 2 t ||| rb 0x12 1 old ||| rb 0x13 1 tn.epoch ||| rb 0x14 4 tn.ended ||| rb 0x18 4 us))
      else ch
    | _ => ch)
  | none => ch

/-- TENANT_SWEEP_DONE, due while the sweep of a reset runs. -/
def execTenantSweepDone (t : Fin 1024) (s : State) : Out :=
  onChip s fun ch =>
    let tn := getTenant ch t
    if tn.st != .resetting || tn.purging then ch
    else
      let us := nowUs ch - tn.since
      let ch := event ch 0x0202 0 (some t.val) [(us, 32)]
      let ch := if tn.toward = 2 then startPurge ch t
        else modTenant ch t fun tn => { tn with st := if tn.toward = 3 then .faulted else .enabled }
      answerReset ch t us

/-- The result of a disable's job (R271). -/
def purgeResult (t : Nat) (p : Nat × Nat × Nat) : Nat := putAt 0 2 t ||| putAt 2 4 p.1 ||| putAt 6 2 p.2.1 ||| putAt 8 2 p.2.2

/-- TENANT_PURGE_DONE, due when every slot and entry of the purge is EMPTY and every erase record is verified. -/
def execTenantPurgeDone (t : Fin 1024) (s : State) : Out :=
  onChip s fun ch =>
    let tn := getTenant ch t
    if tn.st != .resetting || !tn.purging || !tn.kekLeft.isEmpty || !(quotaSlots ch t).isEmpty ||
        !(looseEntries ch t).isEmpty then ch
    else
      let ch := setTenant ch t { tn with st := .disabled, purging := false, job := none }
      match tn.job with
      | some h => jobDue ch h stOk 0 (purgeResult t tn.purged)
      | none => ch

/-- AUTH_INTERVAL, due at each whole second of the microsecond counter. -/
def execAuthInterval (s : State) : Out :=
  onChip s fun ch =>
    if nowUs ch < ch.authSince + 1000000 then ch
    else
      { ch with authSince := nowUs ch / 1000000 * 1000000
                tenants := Tbl.mapVals {} (fun _ tn => { tn with authCount := 0, authLine := false, authAlarmed := false }) ch.tenants }

end Sys2Proof.Machine
end

