-- ==== Sys2Proof/Machine/Flags.lean ====
section
/-! DEFINITION. What the outputs ALARM_N and REPLACE_N and every readable register of the control window show (14_registers.md):
reading one of these registers changes nothing. -/

namespace Sys2Proof.Machine

/-- ALARM_N is low (R351). -/
def alarmLow (ch : Chip) : Bool :=
  halted ch || ch.faults.sticky.any fun e => e.2.bit && 1 ≤ sevOf ch e.1

/-- REPLACE_N is low (R375). -/
def replaceLow (ch : Chip) : Bool := ch.faults.replace

/-- PI_CRED, ATT_VALID, ATT_SRC and ATT_CAUSE: the head of the attention queue, none while HOST_RST_N is low (R256, R475). -/
def attHead (ch : Chip) : Option (Nat × Nat) := if ch.ctl.hostReset then none else ch.ctl.att.head?

/-! ### Pips by number (R414, R417) -/

/-- A position of the log reads blank on a device. -/
def pipBlank (f : Tbl FlitData) (n : Nat) : Bool := flashRead f (logBase + 32 * n) 32 = List.replicate 32 0xFF#8

/-- The Pip at a position of a device, when its CHECK is correct. -/
def pipOn (f : Tbl FlitData) (n : Nat) : Option Pip :=
  let p : Pip := BitVec.ofNat 256 (ofLE (flashRead f (logBase + 32 * n) 32))
  if fld p 48 16 = pipCheck p then some p else none

/-- The Pip at a position of the log; a spoiled position reads as zero (R414). -/
def flashPip (s : State) (n : Nat) : Pip :=
  if s.chip.recorder.spoiled.contains n then 0 else
  let a := pipOn s.flash0 n
  let b := pipOn s.flash1 n
  if s.chip.xspi0.inService && s.chip.xspi1.inService then (if a = b then a.getD 0 else 0)
  else if s.chip.xspi1.inService then b.getD 0
  else a.getD 0

/-- Pips not yet in flash, oldest first. -/
def unflushed (ch : Chip) : List Pip :=
  let r := ch.recorder
  r.handed.drop (r.handed.length - r.left) ++ r.filling

/-- Pip `i`; none beyond the last, or where a log clear has already erased it (R338). -/
def pipAt (s : State) (i : Nat) : Option Pip :=
  let w := s.chip.recorder.wpos
  if i < w then
    (if s.chip.recorder.clearing.isSome && pipBlank (if s.chip.xspi0.inService then s.flash0 else s.flash1) i then none
      else some (flashPip s i))
  else (unflushed s.chip)[i - w]?

/-! ### Register views -/

def bitIf (b : Bool) (n : Nat) : Nat := if b then 1 <<< n else 0

/-- IDENTITY (Table 14.3). Quince starts within the boot steps that POWER_ON_RESET runs (B4). -/
def identityReg (s : State) : Nat :=
  field 32 32 (runningRelease s.chip) ||| field 24 8 (secretInUse s.otp) |||
    field 16 8 s.otp.svn ||| field 12 4 Config.stepping.toNat ||| 0x204

/-- A count of active slices as a register shows it: 0 until the boot tests of B9 have ended (Table 14.5). -/
def testedCount (ch : Chip) (n : Nat) : Nat := if ch.dstate = 0 then 0 else n

/-- DEVICE_STATUS (Table 14.5). -/
def deviceStatus (ch : Chip) : Nat :=
  field 48 9 (testedCount ch (lslices ch)) ||| field 32 11 (testedCount ch (sslices ch)) ||| field 16 16 ch.boots ||| bitIf ch.fw.handover 6 |||
    bitIf (replaceLow ch) 5 ||| bitIf (alarmLow ch) 4 ||| bitIf ch.pfail 3 ||| bitIf ch.rng.seeded 2 ||| field 0 2 ch.dstate

/-- CFG_STATUS (Table 14.6). -/
def cfgStatus (ch : Chip) : Nat :=
  bitIf (!ch.quince.dirty.isEmpty) 48 ||| field 40 8 ch.quince.commitResult ||| bitIf ch.quince.commitBusy 33 |||
    bitIf ch.live2 32 ||| field 16 16 (if ch.live2 then ch.oldGen else ch.admitGen) ||| field 0 16 ch.admitGen

/-- LEASE_STATUS (Table 14.8). -/
def leaseStatus (s : State) : Nat :=
  let m := s.chip.damson
  field 32 18 (subLeft m) ||| field 8 7 s.otp.journalGen ||| bitIf m.change.isSome 4 ||| bitIf (56 ≤ s.otp.journalGen) 3 |||
    bitIf s.aon.shadowValid 2 ||| bitIf m.exhausted 1 ||| bitIf m.blocked 0

/-- The staged copy of a register: the value in force unless it has been written (R330). -/
def stagedCopy (ch : Chip) (off : Nat) : Word64 :=
  if ch.quince.dirty.contains off then Tbl.get (stagedReset off) ch.quince.staged off else cfgReg ch.cfg off

/-- PORT_ERRORS (Table 14.13). -/
def portErrors (pt : Port) : Nat := field 32 16 pt.overrun ||| field 16 16 pt.ecredit ||| field 0 16 pt.orphan

/-- LINE_ERRORS (Table 14.16). -/
def lineErrors (l : LinePort) : Nat := field 32 16 l.auth ||| field 16 16 l.ecc ||| field 0 16 l.refused

/-- The global page (Table 14.2). -/
def readGlobal (s : State) (off : Nat) : Nat :=
  let ch := s.chip
  if off < 0x010 then bits Config.deviceId.toNat (8 * off) 64
  else if off = 0x010 then identityReg s
  else if off = 0x018 then s.otp.disabled.toNat
  else if off = 0x020 then deviceStatus ch
  else if off = 0x028 then cfgStatus ch
  else if off = 0x038 then leaseStatus s
  else if 0x040 ≤ off && off < 0x060 then fld ch.ctl.fetch (8 * (off - 0x040)) 64
  else if stagedOff off then (stagedCopy ch off).toNat
  else if off = 0x098 then ch.flitGap
  else if off = 0x0A0 then ch.rngStallMax
  else if off = 0x0A8 then ch.brambleEn
  else if off = 0x0B0 then ch.bramblePend
  else if 0x400 ≤ off && off < 0xC00 then
    let pt := getPort ch ((off - 0x400) / 0x20)
    if off % 0x20 = 0 then pt.portCredit.toNat else if off % 0x20 = 0x18 then portErrors pt else 0
  else if 0xC00 ≤ off && off < 0xD00 then lineErrors (getLine ch ((off - 0xC00) / 8))
  else 0

/-- The random page without RNG_DATA (Table 14.18). -/
def readRandom (ch : Chip) (off : Nat) : Nat :=
  if off = 8 then bitIf ch.rng.failed 1 ||| bitIf ch.rng.seeded 0 else 0

/-- The event window page (Table 14.19). -/
def readEvent (ch : Chip) (off : Nat) : Nat :=
  let r := ch.recorder
  if off = 0 then r.cursor
  else if off = 8 then
    bitIf r.loading 42 ||| bitIf r.clearing.isSome 41 ||| bitIf r.full 40 ||| field 32 8 r.filling.length ||| field 0 32 r.wpos
  else if off = 0x10 then r.attEn
  else if off = 0x18 then r.attPend
  else if 0x800 ≤ off then fld (r.window.getD ((off - 0x800) / 32) 0) (8 * (off % 32)) 64
  else 0

/-- Sticky bits set. -/
def stickySet (ch : Chip) : Nat := (ch.faults.sticky.filter (·.2.bit)).length

/-- FAULT_STICKY word `w` (Table 14.20). -/
def stickyWord (ch : Chip) (w : Nat) : Nat := (List.range 64).foldl (fun n i => n ||| bitIf (getSticky ch (64 * w + i)).bit i) 0

/-- The fault page (Table 14.20). -/
def readFault (ch : Chip) (off : Nat) : Nat :=
  let f := ch.faults
  if off < 0x200 then stickyWord ch (off / 8)
  else if off = 0x200 then
    field 32 16 (stickySet ch) ||| bitIf (f.react = 2) 3 ||| bitIf (halted ch) 2 ||| bitIf (alarmLow ch) 1 |||
      bitIf (0 < stickySet ch) 0
  else if off = 0x208 then f.last.toNat
  else if off = 0x210 then f.attEn
  else if off = 0x218 then f.attPend
  else 0

/-- The code of a slot state (Table 11.3). -/
def slotCode (st : SlotState) : Nat :=
  match st with
  | .free => 0
  | .submitted => 1
  | .executing => 2
  | .done => 3

/-- MB_STATE (Table 14.22). -/
def mbState (m : Mailbox) : Nat :=
  let slots := (List.range 8).foldl (fun n i => n ||| field (2 * i) 2 (slotCode (Tbl.get ({} : MbSlot) m.slots i).st)) 0
  field 24 5 (m.jobs.filter fun j => !isRunning j).length ||| field 16 3 (runningJobs m) ||| slots

/-- OFFICER_STATUS (Table 14.24). -/
def officerStatus (ch : Chip) (o : Nat) : Nat :=
  let f := getOfficer ch o
  let left := match f.lockUntil with | some e => e - nowUs ch | none => 0
  let allowed := match f.allowUntil with | some e => nowUs ch < e | none => false
  field 32 16 (ceilDiv left 1000) ||| field 8 4 f.fails ||| bitIf allowed 2 ||| bitIf (0 < left) 1 ||| bitIf f.enrolled 0

/-- TENANT_STATUS and TENANT_POLICY (Table 14.25). -/
def tenantStatus (ch : Chip) (t : Nat) : Nat :=
  let tn := getTenant ch t
  bitIf tn.alarm 16 ||| field 8 8 tn.epoch ||| field 0 2 (tenantCode tn.st)

def tenantPolicy (ch : Chip) (t : Nat) : Nat :=
  let c := tenantCfg ch.cfg t
  field 56 8 c.modes ||| field 32 13 c.rangeQuota ||| field 24 6 c.patQuota ||| field 16 7 c.accQuota |||
    bitIf c.clearDek 15 ||| bitIf c.noHold 14 ||| field 0 13 c.holdLimit

/-- ALARM_MAP word `w` (Table 14.23). -/
def alarmWord (ch : Chip) (w : Nat) : Nat := (List.range 64).foldl (fun n i => n ||| bitIf (getTenant ch (64 * w + i)).alarm i) 0

/-- A mailbox page (Tables 11.2, 14.21 to 14.25). Command areas read what was written; WO words read as zero. -/
def readMailbox (ch : Chip) (mb off : Nat) : Nat :=
  let m := getMb ch mb
  if off < 0x400 then fld (Tbl.get ({} : MbSlot) m.slots (off / 0x80)).cmd (8 * (off % 0x80)) 64
  else if off < 0x600 then fld (Tbl.get ({} : MbSlot) m.slots ((off - 0x400) / 0x40)).resp (8 * (off % 0x40)) 64
  else if off = 0x610 then mbState m
  else if off = 0x618 then field 16 16 m.badring ||| field 0 16 m.badwrite
  else if off = 0x620 then m.attEn
  else if off = 0x628 then m.attPend
  else if mb = 1024 then
    (if 0x700 ≤ off && off < 0x780 then alarmWord ch ((off - 0x700) / 8)
    else if 0x780 ≤ off && off < 0x7B8 then
      ofLE ((((m.blobOut.map (·.2)).getD []).drop (off - 0x780)).take 8)
    else 0)
  else
    match officerOf mb with
    | some o =>
      if off = 0x740 || off = 0x748 then ofLE (((challengeOf (getOfficer ch o)).drop (off - 0x740)).take 8)
      else if off = 0x750 then officerStatus ch o
      else 0
    | none =>
      if mb < 1024 && off = 0x780 then tenantStatus ch mb
      else if mb < 1024 && off = 0x788 then tenantPolicy ch mb
      else 0

/-- The mailbox of a page. -/
def pageMb (page : Nat) : Option Nat :=
  if 4 ≤ page && page < 8 then some (1020 + page) else if 0x10 ≤ page && page < 0x410 then some (page - 0x10) else none

/-- An offset in a hole of Table 14.1. -/
def inHole (off : Nat) : Bool := (0x8000 ≤ off && off < 0x10000) || (0x410000 ≤ off && off < 0x700000) || 0x800000 ≤ off

/-- What the register at a window offset shows. -/
def regRead (s : State) (off : Nat) : Word64 :=
  let page := off / 0x1000
  let o := off % 0x1000
  BitVec.ofNat 64 <|
    if page = 0 then readGlobal s o
    else if page = 1 then readRandom s.chip o
    else if page = 2 then readEvent s.chip o
    else if page = 3 then readFault s.chip o
    else match pageMb page with
      | some mb => readMailbox s.chip mb o
      | none => 0

end Sys2Proof.Machine
end

