-- ==== Sys2Proof/Machine/ControlPort.lean ====
section
/-! DEFINITION. Accesses of the control port (14_registers.md): their order and stalls (R328), and the effect of a write or a
read of every register of the control window. -/

namespace Sys2Proof.Machine

/-! ### Ends of an access -/

/-- The access ends in an error response. -/
def ctlErr (ch : Chip) : Chip := { ch with ctl := { ch.ctl with err := true, data := 0 } }

/-- The access completes. -/
def ctlDone (ch : Chip) (data : Word64) : Chip := { ch with ctl := { ch.ctl with err := false, data := data } }

/-- The access stalls. -/
def ctlStall (ch : Chip) (w : CtlStall) : Chip := { ch with ctl := { ch.ctl with stall := some w } }

/-- The end of a write: an error, a stall already entered, or completion. -/
def endWrite (ch : Chip) (r : Option Chip) : Chip :=
  match r with
  | none => ctlErr ch
  | some ch' => if ch'.ctl.stall.isSome then ch' else ctlDone ch' 0

/-! ### The global page -/

/-- Fields of a staged register: lowest bit, width, least and greatest value (Tables 14.10, 14.11, 14.13, 14.15). -/
def stagedFields (off : Nat) : List (Nat × Nat × Nat × Nat) :=
  if off = 0x068 then [(48, 9, 8, 256), (32, 14, 1, 10000), (16, 9, 1, 256), (0, 9, 1, 256)]
  else if off = 0x070 then [(0, 10, 1, 1000)]
  else if off = 0x078 then [(0, 5, 1, 16)]
  else if off = 0x080 then [(32, 6, 0, 48), (16, 8, 1, 255), (8, 8, 1, 255), (0, 8, 1, 255)]
  else if off = 0x088 then [(0, 64, 0, 2 ^ 64 - 1)]
  else if off = 0x090 then [(0, 11, 16, 1024)]
  else if off = 0x0C0 then [(8, 6, 1, 32), (0, 5, 0, 20)]
  else if off = 0x0C8 || off = 0x0D0 then [(0, 60, 0, 2 ^ 60 - 1)]
  else if off = 0x0D8 then [(0, 40, 0, 2 ^ 40 - 1)]
  else if off % 0x20 = 0x08 then [(8, 7, 1, 64), (0, 8, 1, 128)]
  else [(0, 6, 0, 63)]

/-- Every field within its range (R330). -/
def stagedOk (off : Nat) (v : Word64) : Bool :=
  (stagedFields off).all fun f => f.2.2.1 ≤ fld v f.1 f.2.1 && fld v f.1 f.2.1 ≤ f.2.2.2

/-- A value without its reserved bits (R10). -/
def stagedMask (off : Nat) (v : Word64) : Word64 :=
  BitVec.ofNat 64 ((stagedFields off).foldl (fun n f => n ||| field f.1 f.2.1 (fld v f.1 f.2.1)) 0)

/-- Store a staged copy and mark it dirty (R330). -/
def putStaged (ch : Chip) (off : Nat) (v : Word64) : Chip :=
  let q := ch.quince
  let dirty := if q.dirty.contains off then q.dirty else q.dirty ++ [off]
  { ch with quince := { q with staged := Tbl.set (stagedReset off) q.staged off (stagedMask off v), dirty := dirty } }

/-- A write to a staged register (R330, R331). -/
def writeStaged (ch : Chip) (off : Nat) (v : Word64) : Option Chip :=
  if halted ch then none
  else if ch.quince.commitBusy then some (ctlStall ch (.staged off v))
  else if stagedOk off v then some (putStaged ch off v) else none

/-- CFG_COMMIT (Table 14.7): DISCARD takes precedence; a GO while a commit has been requested is ignored. -/
def discardStaged (ch : Chip) : Chip := { ch with quince := { ch.quince with staged := [], dirty := [] } }
def requestCommit (ch : Chip) : Chip := { ch with quince := { ch.quince with commitBusy := true } }
def writeCommit (ch : Chip) (v : Word64) : Chip :=
  if v.getLsbD 1 then discardStaged ch else if v.getLsbD 0 then requestCommit ch else ch

/-- PORT_CREDIT (R44, Table 14.13). -/
def creditOk (v : Word64) : Bool :=
  let p (i : Nat) := fld v (9 * i) 9
  p 0 + p 1 + p 2 + p 3 = 256 && 8 ≤ p 0 && 8 ≤ p 1 && 8 ≤ p 2 && 8 ≤ p 3
def writePortCredit (ch : Chip) (p : Nat) (v : Word64) : Option Chip :=
  if halted ch || !creditOk v then none
  else some (modPort ch p fun pt => { pt with portCredit := BitVec.ofNat 64 (fld v 0 36) })

/-- PORT_TIMERS (R334). -/
def writePortTimers (ch : Chip) (v : Word64) : Option Chip :=
  if halted ch || fld v 0 8 = 0 then none else some { ch with flitGap := fld v 0 8 }

/-- RNG_CTL (Table 14.14). -/
def writeRngCtl (ch : Chip) (v : Word64) : Option Chip :=
  let n := fld v 0 10
  if halted ch || n = 0 || 1000 < n then none else some { ch with rngStallMax := n }

/-- ATT_EN of a source: undefined causes are ignored, and enabled pending causes enter the queue (R336). -/
def writeAttEn (ch : Chip) (src : Nat) (v : Word64) : Chip :=
  let en := fld v 0 16 &&& attCauses src
  attPump <|
    if src = 0x800 then { ch with faults := { ch.faults with attEn := en } }
    else if src = 0x801 then { ch with brambleEn := en }
    else if src = 0x802 then { ch with recorder := { ch.recorder with attEn := en } }
    else modMb ch src fun m => { m with attEn := en }

def writeGlobal (ch : Chip) (off : Nat) (v : Word64) : Option Chip :=
  if off = 0x030 then some (writeCommit ch v)
  else if off = 0x060 then some (brambleAck ch v)
  else if off = 0x098 then writePortTimers ch v
  else if off = 0x0A0 then writeRngCtl ch v
  else if off = 0x0A8 then some (writeAttEn ch 0x801 v)
  else if stagedOff off then writeStaged ch off v
  else if 0x400 ≤ off && off < 0xC00 && off % 0x20 = 0 then writePortCredit ch ((off - 0x400) / 0x20) v
  else some ch

/-! ### The event window and fault pages -/

/-- EVT_CURSOR: a fill of the window starts, in place of one that runs (R338). -/
def writeCursor (ch : Chip) (v : Word64) : Chip :=
  { ch with recorder := { ch.recorder with cursor := fld v 0 32, loading := true } }

/-- One sticky bit is cleared, unless a HALT or ZEROIZE holds it; REPEAT of its sources restarts (R339, R344). -/
def clearSticky (ch : Chip) (ix : Nat) : Chip :=
  let st := getSticky ch ix
  if st.bit && !st.locked then
    let ch := setSticky ch ix { st with bit := false }
    let srcs := (ch.faults.srcs.filter fun e => decide (srcSticky e.1 = some ix)).map (·.1)
    srcs.foldl (fun ch src => setSrc ch src { getSrc ch src with rep := 0 }) ch
  else ch

/-- FAULT_STICKY word `w` (R339). -/
def writeSticky (ch : Chip) (w : Nat) (v : Word64) : Chip :=
  (List.range 64).foldl (fun ch i => if v.getLsbD i then clearSticky ch (64 * w + i) else ch) ch

/-! ### Mailbox pages -/

/-- A command word of a slot (R241); none when the slot is not FREE. -/
def writeCommand (ch : Chip) (mb off : Nat) (v : Word64) : Option Chip :=
  let m := getMb ch mb
  let sl := Tbl.get ({} : MbSlot) m.slots (off / 0x80)
  if sl.st = .free then
    some (setMb ch mb { m with slots := Tbl.set {} m.slots (off / 0x80) { sl with cmd := setFld sl.cmd (8 * (off % 0x80)) 64 v.toNat } })
  else none

/-- A write to a slot that is not FREE is counted (R241). -/
def countBadWrite (ch : Chip) (mb : Nat) : Chip := modMb ch mb fun m => { m with badwrite := satInc 16 m.badwrite }

/-- Ring the doorbell of one slot (R242), which takes the tenant's epoch (R230). -/
def ringSlot (epoch : Nat) (m : Mailbox) (i : Nat) : Mailbox :=
  let sl := Tbl.get ({} : MbSlot) m.slots i
  if sl.st = .free then
    { m with slots := Tbl.set {} m.slots i { sl with st := .submitted, epoch := epoch }, order := m.order ++ [i] }
  else { m with badring := satInc 16 m.badring }

/-- MB_DOORBELL: slots in ascending order. -/
def writeDoorbell (ch : Chip) (mb : Nat) (v : Word64) : Chip :=
  let epoch := if mb < 1024 then (getTenant ch mb).epoch else 0
  modMb ch mb fun m => (List.range 8).foldl (fun m i => if v.getLsbD i then ringSlot epoch m i else m) m

/-- Free one DONE slot; the blob its command exported goes (R242, R308). -/
def freeSlot (m : Mailbox) (i : Nat) : Mailbox :=
  let sl := Tbl.get ({} : MbSlot) m.slots i
  if sl.st = .done then
    { m with slots := Tbl.set {} m.slots i { sl with st := .free }
             blobOut := m.blobOut.filter fun (b : Nat × List Byte) => b.1 != i }
  else m

/-- MB_DONE. -/
def writeDone (ch : Chip) (mb : Nat) (v : Word64) : Chip :=
  modMb ch mb fun m => (List.range 8).foldl (fun m i => if v.getLsbD i then freeSlot m i else m) m

/-- A BLOB word; discarded under a reaction (R262, R331). -/
def writeBlob (ch : Chip) (mb w : Nat) (v : Word64) : Chip :=
  if halted ch || 1024 < mb then ch else modMb ch mb fun m => { m with blob := Tbl.set none m.blob w (some v) }

/-- A KEY_DATA or KSHARE word; discarded under a reaction (R120, R129, R331). -/
def writeKeyWord (ch : Chip) (mb w : Nat) (v : Word64) : Chip :=
  if halted ch then ch else modMb ch mb fun m => { m with keyData := Tbl.set none m.keyData w (some v) }

/-- ALARM_MAP word `w` (R238). Under a reaction no bit clears: only the sticky bits do (R331; DEDUCED, log entry 36). -/
def writeAlarmMap (ch : Chip) (w : Nat) (v : Word64) : Chip :=
  if halted ch then ch else (List.range 64).foldl (fun ch i =>
    if v.getLsbD i then modTenant ch (64 * w + i) fun t => { t with alarm := false } else ch) ch

def writeMailbox (ch : Chip) (mb off : Nat) (v : Word64) : Chip :=
  if off < 0x400 then
    match writeCommand ch mb off v with
    | some ch' => ctlDone ch' 0
    | none => ctlErr (countBadWrite ch mb)
  else ctlDone (
    if off = 0x600 then writeDoorbell ch mb v
    else if off = 0x608 then writeDone ch mb v
    else if off = 0x620 then writeAttEn ch mb v
    else if 0x640 ≤ off && off < 0x6C0 then writeBlob ch mb ((off - 0x640) / 8) v
    else if 0x700 ≤ off && off < 0x780 && mb = 1024 then writeAlarmMap ch ((off - 0x700) / 8) v
    else if 0x700 ≤ off && off < 0x740 && (mb < 1024 || mb = 1025 || mb = 1026) then writeKeyWord ch mb ((off - 0x700) / 8) v
    else ch) 0

/-! ### The staging window -/

/-- A word of the staging window, while a session is open and no write job of it runs (R341). -/
def writeStaging (ch : Chip) (w : Nat) (v : Word64) : Chip :=
  match ch.fw.stage with
  | some g => if g.jobs.any (·.writing) then ch else { ch with fw := { ch.fw with window := Tbl.set 0 ch.fw.window w v } }
  | none => ch

/-! ### Reads that act -/

/-- A read of RNG_DATA (R337, R405). -/
def readRng (ch : Chip) : Chip :=
  if halted ch || ch.rng.failed || ch.rng.noData then ctlErr ch
  else if ch.rng.seeded then
    let d := drawBytes ch 8
    ctlDone d.2 (BitVec.ofNat 64 (ofLE d.1))
  else ctlStall ch (.rng ch.cycle)

/-- A word of EVT_WINDOW: a stall while the window fills (R338). -/
def readWindow (ch : Chip) (i : Nat) : Chip :=
  if ch.recorder.loading then ctlStall ch (.window i) else ctlDone ch (BitVec.ofNat 64 (readEvent ch (0x800 + 8 * i)))

/-- A read of word 0 of BRAMBLE_FETCH (R333). -/
def readFetch (ch : Chip) : Chip :=
  let (d, rest) : BitVec 256 × List (Nat × BitVec 256) := match ch.fetchQ with
    | x :: rest => (x.2, rest)
    | [] => (0, [])
  ctlDone { ch with fetchQ := rest, ctl := { ch.ctl with fetch := d } } (BitVec.ofNat 64 (fld d 0 64))

/-! ### The window -/

/-- A write of an aligned word. -/
def regWrite (ch : Chip) (off : Nat) (v : Word64) : Chip :=
  let page := off / 0x1000
  let o := off % 0x1000
  if inHole off then ctlErr ch
  else if page = 0 then endWrite ch (writeGlobal ch o v)
  else if page = 1 then ctlDone ch 0
  else if page = 2 then
    ctlDone (if o = 0 then writeCursor ch v else if o = 0x10 then writeAttEn ch 0x802 v else ch) 0
  else if page = 3 then
    ctlDone (if o < 0x200 then writeSticky ch (o / 8) v else if o = 0x210 then writeAttEn ch 0x800 v else ch) 0
  else if 0x700000 ≤ off then ctlDone (writeStaging ch ((off - 0x700000) / 8) v) 0
  else match pageMb page with
    | some mb => writeMailbox ch mb o v
    | none => ctlDone ch 0

/-- One access, when its turn has come (R328). -/
def doAccess (s : State) (off : Nat) (a : Access) : State :=
  let ch := s.chip
  if a.size != 8 || off % 8 != 0 then { s with chip := ctlErr ch }
  else if a.write then { s with chip := regWrite ch off a.data }
  else if inHole off then { s with chip := ctlErr ch }
  else if off = 0x1000 then { s with chip := readRng ch }
  else if 0x2800 ≤ off && off < 0x3000 then { s with chip := readWindow ch ((off - 0x2800) / 8) }
  else if off = 0x040 then { s with chip := readFetch ch }
  else { s with chip := ctlDone ch (regRead s off) }

/-- An access arrives: while HOST_RST_N is low it ends in an error response (R475), and behind a stalled one it waits
(R328); a full queue does not take it (R19). Otherwise `f` does what the access does. -/
def access (s : State) (off : Nat) (a : Access) (f : State → State) : State :=
  let c := s.chip.ctl
  if c.hostReset then { s with chip := ctlErr s.chip }
  else if c.stall.isSome then
    { s with chip := { s.chip with ctl := { c with behind := if c.behind.length < 16 then c.behind ++ [(off, a)] else c.behind } } }
  else f s

/-- The accesses that waited run, up to the next stall. -/
def drain : Nat → State → State
  | 0, s => s
  | n + 1, s =>
    let c := s.chip.ctl
    if c.stall.isSome then s
    else
      match c.behind with
      | [] => s
      | x :: rest => drain n (doAccess { s with chip := { s.chip with ctl := { c with behind := rest } } } x.1 x.2)

/-- The stalled access leaves: `f` answers it, and those behind it follow. -/
def endStall (s : State) (f : State → State) : State :=
  drain 17 (f { s with chip := { s.chip with ctl := { s.chip.ctl with stall := none } } })

/-! ### The rows -/

def wordWrite (off : Nat) (v : Word64) : Access := { off := Fin.ofNat 4096 off, size := 8, write := true, data := v }
def wordRead (off : Nat) : Access := { off := Fin.ofNat 4096 off, size := 8, write := false, data := 0 }

/-- A row that writes one register: `f` answers none for an error response. -/
def writeRow (s : State) (off : Nat) (v : Word64) (f : Chip → Option Chip) : Out :=
  onState s fun s => access s off (wordWrite off v) fun s => { s with chip := endWrite s.chip (f s.chip) }

/-- A row that reads one register with an effect. -/
def readRow (s : State) (off : Nat) (f : Chip → Chip) : Out :=
  onState s fun s => access s off (wordRead off) fun s => { s with chip := f s.chip }

/-- Offset of a mailbox page. -/
def mbPage (mb : Nat) : Nat := if mb < 1024 then 0x10000 + 0x1000 * mb else 0x4000 + 0x1000 * (mb - 1024)

/-- BRAMBLE_FETCH_READ. -/
def execBrambleFetchRead (s : State) : Out := readRow s 0x040 readFetch

/-- BRAMBLE_DONE. -/
def execBrambleDone (data : Word64) (s : State) : Out := writeRow s 0x060 data fun ch => some (brambleAck ch data)

/-- MB_COMMAND_WRITE: any access to the command and response areas of a mailbox page (R241). -/
def execMbCommandWrite (mb : Fin 1028) (a : Access) (s : State) : Out :=
  let off := mbPage mb + a.off.val
  onState s fun s => access s off a fun s => doAccess s off a

/-- MB_DOORBELL. -/
def execMbDoorbell (mb : Fin 1028) (data : Word64) (s : State) : Out :=
  writeRow s (mbPage mb + 0x600) data fun ch => some (writeDoorbell ch mb data)

/-- MB_DONE. -/
def execMbDone (mb : Fin 1028) (data : Word64) (s : State) : Out :=
  writeRow s (mbPage mb + 0x608) data fun ch => some (writeDone ch mb data)

/-- The source of an attention page, and the offset of its ATT_EN. -/
def attPageSrc (p : AttPage) : Nat × Nat :=
  match p with
  | .mailbox mb => (mb.val, mbPage mb + 0x620)
  | .bramble => (0x801, 0x0A8)
  | .event => (0x802, 0x2010)
  | .fault => (0x800, 0x3210)

/-- ATT_EN_WRITE. -/
def execAttEnWrite (page : AttPage) (data : Word64) (s : State) : Out :=
  writeRow s (attPageSrc page).2 data fun ch => some (writeAttEn ch (attPageSrc page).1 data)

/-- CFG_COMMIT_GO: a write of 1. -/
def execCfgCommitGo (s : State) : Out := writeRow s 0x030 1 fun ch => some (requestCommit ch)

/-- CFG_COMMIT_DISCARD: a write of 2. -/
def execCfgCommitDiscard (s : State) : Out := writeRow s 0x030 2 fun ch => some (discardStaged ch)

/-- STAGED_REGISTER_WRITE. An offset that is no staged register is written as any other (R328). -/
def execStagedRegisterWrite (off : Fin 4096) (data : Word64) (s : State) : Out :=
  if stagedOff off then writeRow s off data fun ch => writeStaged ch off data
  else onState s fun s => access s off (wordWrite off data) fun s => doAccess s off (wordWrite off data)

/-- PORT_CREDIT_WRITE. -/
def execPortCreditWrite (p : Fin 64) (data : Word64) (s : State) : Out :=
  writeRow s (0x400 + 0x20 * p.val) data fun ch => writePortCredit ch p data

/-- PORT_TIMERS_WRITE. -/
def execPortTimersWrite (data : Word64) (s : State) : Out := writeRow s 0x098 data fun ch => writePortTimers ch data

/-- KEY_DATA_WRITE. -/
def execKeyDataWrite (t : Fin 1024) (w : Fin 8) (data : Word64) (s : State) : Out :=
  writeRow s (mbPage t + 0x700 + 8 * w.val) data fun ch => some (writeKeyWord ch t w data)

/-- KSHARE_WRITE. -/
def execKshareWrite (o : Fin 2) (w : Fin 8) (data : Word64) (s : State) : Out :=
  writeRow s (mbPage (1025 + o.val) + 0x700 + 8 * w.val) data fun ch => some (writeKeyWord ch (1025 + o.val) w data)

/-- BLOB_WRITE. Officer and factory pages hold no BLOB words (R340). -/
def execBlobWrite (mb : Fin 1028) (w : Fin 16) (data : Word64) (s : State) : Out :=
  writeRow s (mbPage mb + 0x640 + 8 * w.val) data fun ch => some (writeBlob ch mb w data)

/-- FAULT_STICKY_CLEAR. -/
def execFaultStickyClear (w : Fin 64) (data : Word64) (s : State) : Out :=
  writeRow s (0x3000 + 8 * w.val) data fun ch => some (writeSticky ch w data)

/-- ALARM_MAP_CLEAR. -/
def execAlarmMapClear (w : Fin 16) (data : Word64) (s : State) : Out :=
  writeRow s (0x4700 + 8 * w.val) data fun ch => some (writeAlarmMap ch w data)

/-- RNG_DATA_READ. -/
def execRngDataRead (s : State) : Out := readRow s 0x1000 readRng

/-- RNG_STALL_EXPIRY, due when a stalled read of RNG_DATA has waited RNG_STALL_MAX. -/
def execRngStallExpiry (s : State) : Out :=
  onState s fun s =>
    match s.chip.ctl.stall with
    | some (.rng since) =>
      if s.chip.cycle < since + s.chip.rngStallMax * usCycles s.chip then s
      else endStall s fun s => { s with chip := ctlErr s.chip }
    | _ => s

/-- EVT_CURSOR_WRITE. -/
def execEvtCursorWrite (data : Word64) (s : State) : Out := writeRow s 0x2000 data fun ch => some (writeCursor ch data)

/-- EVT_WINDOW_READ. -/
def execEvtWindowRead (i : Fin 256) (s : State) : Out := readRow s (0x2800 + 8 * i.val) fun ch => readWindow ch i

/-- EVT_WINDOW_FILL_DONE, due while a fill runs: position i holds Pip EVT_CURSOR + i, and zero beyond the last (R338). -/
def execEvtWindowFillDone (s : State) : Out :=
  onState s fun s =>
    let r := s.chip.recorder
    if !r.loading then s
    else
      let pips := (List.range 64).map fun i => (pipAt s (r.cursor + i)).getD 0
      let s := { s with chip := { s.chip with recorder := { r with loading := false, window := pips } } }
      match s.chip.ctl.stall with
      | some (.window i) => endStall s fun s => { s with chip := readWindow s.chip i }
      | _ => s

/-- STAGING_WINDOW_WRITE: word `off` of the staging window. -/
def execStagingWindowWrite (off : Fin 131072) (data : Word64) (s : State) : Out :=
  writeRow s (0x700000 + 8 * off.val) data fun ch => some (writeStaging ch off data)

/-- REGISTER_WRITE: any access of the control window, a read included. -/
def execRegisterWrite (off : BitVec 23) (a : Access) (s : State) : Out :=
  onState s fun s => access s off.toNat a fun s => doAccess s off.toNat a

/-- ATTENTION_TRANSFER: the head of the queue leaves, and a pending enabled cause may take its room (R256, R257). -/
def execAttentionTransfer (s : State) : Out :=
  onChip s fun ch =>
    if ch.ctl.hostReset then ch else attPump { ch with ctl := { ch.ctl with att := ch.ctl.att.tail } }

end Sys2Proof.Machine
end

