-- ==== Sys2Proof/Machine/Collector.lean ====
section
/-! DEFINITION. Fault messages as they come to the collector, the ends of what a reaction started (15_faults.md), the
known-answer tests and the standby rotation (16_degraded.md), and the shadow walker (17_boundary.md R392). -/

namespace Sys2Proof.Machine

/-- A stalled read of RNG_DATA ends in an error response in the cycle in which the random unit can no longer serve it
(R337, R404). -/
def settleRng (s : State) : State :=
  match s.chip.ctl.stall with
  | some (.rng _) =>
    if halted s.chip || s.chip.rng.failed then endStall s fun s => { s with chip := ctlErr s.chip } else s
  | _ => s

/-! ### FAULT_MESSAGE -/

/-- FK_DRBG formed by the random unit's own check: its known-answer test has failed twice within 1 s, and it is FAILED
(R400). -/
def ownDrbg (ch : Chip) (src kind : Nat) : Chip :=
  if src = srcSub 6 && kind = fkDrbg then { ch with rng := { ch.rng with failed := true, seeded := false, katOk := false } } else ch

/-- The source is a Currant or one of its byte lanes. -/
def isCurrantSrc (src : Nat) : Bool :=
  match srcUnit src with
  | some id => isUnit5 2 id
  | none => false

/-- The cause that EV_ROW_DISCARDED carries for a damaged accumulator: no row of Table 7.5 is given for it, so it is a free
value (log entry 7). -/
def freeCause (ch : Chip) : Nat := (Config.freeWord ch.free).toNat % 256

/-- A message that waits for admission ends with DETAIL 0x48, unadmitted, as one does whose flit gap runs out (R52, R349;
DEDUCED, log entry 165). -/
def endWaiting (ch : Chip) (p : Nat) (c : Fin 4) (i : Nat) : Chip :=
  let ic := getIng ch p c
  match ic.waiting[i]? with
  | none => ch
  | some w =>
    let isOpen := decide (ic.run = .waiting) && i + 1 = ic.waiting.length
    let close (ic : IngClass) : IngClass := if isOpen then { ic with run := .discard, gap := 0 } else ic
    rejectStatus (modIng ch p c fun ic => close (leaveQueue i w ic)) p c w.sb stAborted 0x48 (sbNamed w.sb).1 (sbNamed w.sb).2

/-- What a message of a kind damages: an uncorrectable error what it names (R349), a poisoned read the requests and rows of the
stores of Table 1.4 that report it (R441). -/
def victimsOf (kind : Nat) (damage : List Damage) : List Damage :=
  if kind = fkSramUe then damage else if kind = fkProtocol then damage.filter (· != .mirror) else []

/-- What needs data with an uncorrectable error (R349): a request ends, the row of an accumulator is discarded, and Quince
rebuilds its mirror (R377). -/
def endVictim (src : Nat) (ch : Chip) (v : Damage) : Chip :=
  match v with
  | .request p ctx =>
    (match (getPort ch p).reqs.find? fun q => q.ctx = ctx.val && !q.dead with
    | none => ch
    | some q => endReq ch p q stAborted 0x48)
  | .row u id =>
    (match findRow ch u id with
    | some row =>
      if isCurrantSrc src then discardRow { ch with free := ch.free + 1 } u row (freeCause ch) 0x48 else ch
    | none => ch)
  | .waiting p c i => endWaiting ch p c i
  | .mirror => if src = 0x2017 then event (rebuildMirror ch) 0x000E 0 none [] else ch

/-- The oldest message of a lane, taken off the network. -/
def takeLane (s : State) (lane : Fin 4) : Option (FaultMsg × State) :=
  match laneHead s.chip lane with
  | none => none
  | some (src, note) => (takePending s.chip src note).map fun m => (m.1, { s with chip := m.2 })

/-- Handle one message (R343, R349, R350). -/
def faultStep (s : State) (o : FaultOrigin) : State :=
  match o with
  | .waiting lane =>
    (match takeLane s lane with
    | some (m, s) => collect s m
    | none => s)
  | .corrected lane =>
    (match takeLane s lane with
    | some (m, s) => report (collect s m) (srcSub 2) fkNetCe (ctxPlain 0)
    | none => s)
  | .unreadable lane =>
    (match takeLane s lane with
    | some (_, s) => report s (srcSub 2) fkNetUe (ctxPlain lane.val)
    | none => s)
  | .formed src kind ctx damage =>
    if rindDisabled s src.toNat || !kindDefined kind.toNat then s
    else
      let ch := (victimsOf kind.toNat damage).foldl (endVictim src.toNat) s.chip
      let ch := ownDrbg ch src.toNat kind.toNat
      report { s with chip := ch } src.toNat kind.toNat ctx

/-- FAULT_MESSAGE. -/
def execFaultMessage (o : FaultOrigin) (s : State) : Out := onState s fun s => settleRng (faultStep s o)

/-! ### Ends of resets, windows and reactions -/

/-- Slices of a cluster or line port that are themselves ACTIVE. -/
def ownActive (ch : Chip) (ids : List Nat) : Nat := (ids.filter fun id => unitEff (getUnit ch id) = .active).length

/-- The state in which a unit returns from a reset or a revive: a slice beside a full set of active ones is the standby
(R369, R370, R372). -/
def afterReset (ch : Chip) (id : Nat) : UState :=
  if isStreamSlice id then
    (if ownActive ch ((List.range 17).map (srcSlice (sliceCluster id))) < 16 then .active else .spare)
  else if isLineSlice id then
    (if ownActive ch ((List.range 9).map (srcLineSlice (slicePort id))) < 8 then .active else .spare)
  else .active

/-- UNIT_RESET_DONE: the unit returns to service, or the fence that waited for the end of its reset takes effect (R353,
R358). -/
def execUnitResetDone (unit : BitVec 16) (s : State) : Out :=
  onState s fun s =>
    let id := unit.toNat
    let u := getUnit s.chip id
    if !u.resetting then s
    else
      let s := { s with chip := setUnit s.chip id { u with settleFrom := some s.chip.cycle } }
      match u.fenceNext with
      | some cause => settleRng (doFence s id cause)
      | none =>
        let ch := changeUnit s.chip id (afterReset s.chip id) 0
        let ch := setUnit ch id { getUnit ch id with resetting := false }
        { s with chip := updateReplace ch }

/-- SETTLE_WINDOW_CLOSE, due SETTLE after the reset ended or the fence took effect. -/
def execSettleWindowClose (unit : BitVec 16) (s : State) : Out :=
  onChip s fun ch =>
    let u := getUnit ch unit.toNat
    if u.settle && !settleOpen ch unit.toNat then setUnit ch unit.toNat { u with settle := false, settleFrom := none } else ch

/-- HALT_EGRESS_TIMEOUT, due 20 µs after the HALT (R355 step 5). -/
def execHaltEgressTimeout (s : State) : Out :=
  onChip s fun ch =>
    if !halted ch || !ch.faults.closing || ch.cycle < ch.faults.haltAt + 20 * usCycles ch then ch
    else
      { ch with faults := { ch.faults with closing := false }
                ports := Tbl.mapVals {} (fun _ pt => { pt with msgs := [], pe := {} }) ch.ports }

/-- Every slot that is not EMPTY becomes EMPTY with its generation advanced (R134). -/
def sweepDesc (d : BitVec 256) : BitVec 256 := if dState d = ssEmpty then d else setFld 0 107 8 (dKgen d + 1)
def sweepLdesc (d : BitVec 128) : BitVec 128 := if ldState d = ssEmpty then d else setFld 0 107 8 (ldLgen d + 1)

/-- What the physical sweep writes zeros over (R134); an open session loses its target (log entry 132). -/
def physicalSweep (ch : Chip) : Chip :=
  let ch := mapLineDescs sweepLdesc (mapDescs sweepDesc ch)
  let ch := { ch with
    faults := { ch.faults with sweeping := false }
    keys := { ch.keys with
      cache := [], codes := [], pins := [], lstore := [], lcodes := [], keks := [], gtkCur := none, gtkPrev := none
      inflight := [], linflight := [], silent := [], lsilent := [] }
    mbs := Tbl.mapVals {} (fun _ m => { m with keyData := [], newKey := [] }) ch.mbs }
  endSession ch 7

/-- The severity code of the reaction in force. -/
def reactSev (ch : Chip) : Nat := if ch.faults.react = 2 then 4 else 3

/-- ZEROIZE_SWEEP_DONE, due while the physical sweep runs: EV_ZEROIZE, and the TYPE 0x02 record of R395 unless the HALT is
that of R385. -/
def execZeroizeSweepDone (s : State) : Out :=
  onState s fun s =>
    if !s.chip.faults.sweeping then s
    else
      let ch := physicalSweep s.chip
      let sev := reactSev ch
      if ch.faults.quiet then { s with chip := recPip ch (mkPip 0x0308 sev 4 ch.boots (nowUs ch) ch.faults.cause) }
      else
        let s := { s with chip := event ch 0x0308 sev none [(ch.faults.cause, 16)] }
        takeEvidence s (evidenceNow s 2 sev ch.faults.cause 0 0)

/-! ### Known-answer tests and the standby role -/

/-- Units that run known-answer tests (R367). -/
def katUnit (id : Nat) : Bool := srcLevel id = 4 || isUnit5 2 id

/-- A unit's test ends: its source raises FK_KAT on a failure. -/
def endKat (id : Nat) (pass : Bool) (ch : Chip) : Chip :=
  let ch := setUnit ch id { getUnit ch id with katAt := ch.cycle }
  if pass then ch else raise ch id fkKat (ctxPlain 0)

/-- Sources that have failed and not rejoined (R400). -/
def sloesOut (ch : Chip) : Nat := ((List.range 8).filter fun i => !(getSloe ch i).healthy && (getSloe ch i).fails != 0).length

/-- Enter FAILED (R400): FK_DRBG is raised, and nothing is served until the unit has seeded afresh. -/
def rngFail (ch : Chip) : Chip :=
  if ch.rng.failed then ch
  else raise { ch with rng := { ch.rng with failed := true, seeded := false, katOk := false } } (srcSub 6) fkDrbg (ctxPlain 0)

/-- FAILED ends once four sources are healthy again and the unit's known-answer test passes (R400). -/
def rngRecover (ch : Chip) : Chip :=
  if !ch.rng.katOk || (healthySloes ch).length < 4 then ch else { ch with rng := { ch.rng with failed := false } }

/-- The random unit's own known-answer test (R400, R403): the second failure within 1 s is FAILED. -/
def rngKat (pass : Bool) (ch : Chip) : Chip :=
  if pass then rngRecover { ch with rng := { ch.rng with katOk := true } }
  else
    let again := match ch.rng.katFailAt with
      | some t => decide (nowUs ch < t + 1000000)
      | none => false
    let ch := { ch with rng := { ch.rng with katOk := false, katFailAt := some (nowUs ch) } }
    if again then rngFail ch else ch

/-- The issue stage gives this cycle to no retry and no flit of class 0, nor to any other flit if `all`: a second pass that
BRAMBLE_ISSUE_MAX holds back leaves it free. -/
def issueFree (ch : Chip) (cl : Nat) (all : Bool) : Bool :=
  let x := getCluster ch cl
  clusterRuns ch cl && !retryNeedsCycle ch cl &&
    !(x.staging.any fun f => canIssue x f && !f.second && (all || f.cls = 0)) &&
    !(all && (pickFlit ch cl).isSome)

/-- Where R368 lets a unit run its test unforced: the standby slice of a cluster between retries, an active slice in a free
issue cycle, the standby slice of a line port, and a Currant while it takes no flit. -/
def katFree (ch : Chip) (id : Nat) : Bool :=
  let spare := decide (unitEff (getUnit ch id) = .spare)
  if isStreamSlice id then
    (if spare then (getCluster ch (sliceCluster id)).retry.isEmpty else issueFree ch (sliceCluster id) true)
  else if isLineSlice id then spare
  else
    let cur := (getPort ch (unitIndex id)).cur
    (currantNext (currantFits ch (unitIndex id)) cur).isNone && cur.repass.isNone

/-- The test of an active stream slice takes an issue cycle of its cluster. -/
def runKat (ch : Chip) (id : Nat) (pass : Bool) : Chip :=
  if isStreamSlice id && unitEff (getUnit ch id) = .active then clusterCycle ch (sliceCluster id) (endKat id pass)
  else endKat id pass ch

/-- KAT_RUN; with the random unit's source ID, its own test (log entry 140). -/
def execKatRun (unit : BitVec 16) (pass : Bool) (s : State) : Out :=
  if unit.toNat = srcSub 6 then onState s fun s => settleRng { s with chip := rngKat pass s.chip }
  else onChip s fun ch =>
    let id := unit.toNat
    if katUnit id && !unitOut ch id && katFree ch id then runKat ch id pass else ch

/-- A forced test takes its cycle (R368): an active stream slice after class 0, a Currant ahead of its inputs, and a slice of
a line port without a standby, which takes a line slot. -/
def katForced (ch : Chip) (id : Nat) : Bool :=
  if isStreamSlice id then unitEff (getUnit ch id) = .active && issueFree ch (sliceCluster id) false
  else if isLineSlice id then (standbyLine ch (slicePort id)).isNone
  else true

/-- KAT_FORCE, due 9 ms after the unit's last test. -/
def execKatForce (unit : BitVec 16) (pass : Bool) (s : State) : Out :=
  onChip s fun ch =>
    let id := unit.toNat
    if !katUnit id || unitOut ch id || ch.cycle < (getUnit ch id).katAt + 9000 * usCycles ch || !katForced ch id then ch
    else
      let ch := if isLineSlice id then
          modLine ch (slicePort id) fun l => { l with fqStall := max l.fqStall ch.cycle + 2 }
        else ch
      runKat ch id pass

/-- The next slice of a line port, in index order after its standby, that is active. -/
def nextStandby (ch : Chip) (p i : Nat) : Option Nat :=
  ((List.range 8).map fun k => (i + 1 + k) % 9).find? fun k => (getUnit ch (srcLineSlice p k)).live = .active

/-- STANDBY_ROTATE, due every 1 ms. -/
def execStandbyRotate (p : Fin 32) (s : State) : Out :=
  onChip s fun ch =>
    if nowUs ch < (getLine ch p).rotatedAt + 1000 then ch
    else
      let ch := modLine ch p fun l => { l with rotatedAt := nowUs ch }
      match standbyLine ch p with
      | none => ch
      | some i =>
        match nextStandby ch p i with
        | none => ch
        | some k => changeUnit (changeUnit ch (srcLineSlice p i) .active 0) (srcLineSlice p k) .spare 0

/-- SHADOW_WALKER: an entry that is not the inverse of its inverted copy, or an uncorrectable error in either, raises
FK_SHADOW with the entry in CONTEXT (R392). The entry of a flop array is what its comparator finds in a cycle. -/
def execShadowWalker (item : ShadowEntry) (upset upsetInv : BitVec 1024) (bad : Bool) (s : State) : Out :=
  onChip s fun ch =>
    match shadowCopies s item with
    | none => ch
    | some (v, inv) =>
      if !bad && !disagree (shadowWidth item) (v ^^^ upset, inv ^^^ upsetInv) then ch else raiseShadow ch (shadowUnit item)

end Sys2Proof.Machine
end

