-- ==== Sys2Proof/Machine/DeviceCmds.lean ====
section
/-! DEFINITION. The device commands of group 0x01 (12_commands_keys.md, R264 to R269): queries, the enabling and disabling of
ports, commanded zeroization and the factory lock. -/

namespace Sys2Proof.Machine

/-- The command of a row, issued from a mailbox. -/
def isOp (n op : Nat) : Bool := op = n

/-! ### Queries -/

/-- FLAGS of Table 12.2. A device whose descriptor is committed is a member, COMMITTING or COMMITTED (R450). -/
def deviceFlags (s : State) : Nat :=
  let ch := s.chip
  bitIf ch.rng.seeded 0 ||| bitIf s.otp.locked 1 ||| bitIf ch.keys.offA.enrolled 2 ||| bitIf ch.keys.offB.enrolled 3 |||
    bitIf ch.live2 4 ||| bitIf (ch.fw.group != 0) 5

/-- RESULT of XN_DEVICE_QUERY (Table 12.2). -/
def deviceResult (s : State) : Nat :=
  let ch := s.chip
  rb 0x10 4 (runningRelease ch) ||| rb 0x14 2 s.otp.svn ||| rb 0x16 1 (secretInUse s.otp) ||| rb 0x17 1 ch.dstate |||
    rb 0x18 2 (testedCount ch (sslices ch)) ||| rb 0x1A 2 (testedCount ch (lslices ch)) ||| rb 0x1C 2 ch.boots ||| rb 0x1E 2 ch.admitGen |||
    rb 0x20 8 (nowUs ch) ||| rb 0x28 1 (deviceFlags s)

/-- XN_DEVICE_QUERY. -/
def execXnDeviceQuery (mb : Fin 1028) (s : State) : Out :=
  onState s fun s => runCommand s mb (isOp 0x0101) [] fun s _ => (s, .reply (okWith (deviceResult s)))

/-- What XN_JOB_QUERY answers about a handle (R265), with the jobs that remain. -/
def jobAnswer (jobs : List Job) (h : BitVec 32) : Reply × List Job :=
  match jobs.find? (·.handle = h) with
  | none => (failAt 1 stBadField, jobs)
  | some j =>
    match j.result with
    | none => ({ status := stInProgress, job := h.toNat }, jobs)
    | some (st, dt, res) =>
      let rest := match takeFirst (fun x : Job => x.handle = h) jobs with
        | some (_, rest) => rest
        | none => jobs
      ({ status := st, detail := dt, result := rb 0x10 2 j.opcode ||| rb 0x12 30 res }, rest)

/-- XN_JOB_QUERY: the result is released once it has been returned. -/
def execXnJobQuery (mb : Fin 1028) (s : State) : Out :=
  onState s fun s => runCommand s mb (isOp 0x0102) [(0x10, 32)] fun s c =>
    let a := jobAnswer (getMb s.chip mb).jobs (BitVec.ofNat 32 (cb c.cmd 0x10 4))
    ({ s with chip := modMb s.chip mb fun m => { m with jobs := a.2 } }, .reply a.1)

/-! ### Ports (R266) -/

/-- The code of a port state (Table 12.4). -/
def portCode (st : PortState) : Nat :=
  match st with
  | .disabled => 0
  | .enabled => 1
  | .fenced => 2

/-- A port fence of R45 or R47 ends with the port's own fence (R316). -/
def liftPortFence (ch : Chip) (id : Nat) : Chip :=
  let u := getUnit ch id
  if u.live = .fenced && u.cause = 5 && !u.resetting then changeUnit ch id .active 0 else ch

/-- ENABLE or REOPEN of a stream port (R266): empty ingress, the initial credits of R44, CL0_BURST tokens, no egress credit.
A port whose unit is still fenced stays fenced (R379). -/
def openPort (ch : Chip) (p : Nat) : Chip :=
  let ch := liftPortFence ch (srcPort p)
  if unitOut ch (srcPort p) then modPort ch p fun pt => { pt with st := .fenced, cause := 3 }
  else
    let pool (c : Fin 4) : Nat := fld (getPort ch p).portCredit (9 * c.val) 9
    modPort ch p fun pt =>
      { pt with
        st := .enabled, cause := 0, lastIn := false, lastHead := false, pe := {}
        pools := ⟨pool 0, pool 1, pool 2, pool 3⟩
        ing := Quad.map (fun c _ => { unspent := pool c, pulses := pool c : IngClass }) pt.ing
        credit := Quad.all 0, stall := Quad.all 0, stalled := Quad.all false
        tokens := Int.ofNat (256 * cl0Burst ch.cfg p) }

/-- DISABLE of a stream port (R55, R266): requests that are open are recorded first. -/
def disablePort (ch : Chip) (p : Nat) : Chip :=
  let ch :=
    if (getPort ch p).st = .enabled then
      let ch := fencePort ch p 4 fun _ => 0x43
      if (getPort ch p).recs.isEmpty then modPort ch p fun pt => { pt with cause := 0 } else ch
    else liftPortFence ch (srcPort p)
  modPort ch p fun pt => { pt with st := .disabled, pe := {} }

/-- A lane holds requests of the fabric that are not answered. -/
def lineHasWork (l : LinePort) : Bool := !(laneHost l.lane0).isEmpty || !(laneHost l.lane1).isEmpty

/-- ENABLE or REOPEN of a line port (R198, R266): sweeps that its fence or disable paused resume. -/
def openLine (ch : Chip) (p : Nat) : Chip :=
  let ch := liftPortFence ch (srcLine p)
  if unitOut ch (srcLine p) || unitOut ch (srcGroup (groupOf p)) then
    modLine ch p fun l => { l with st := .fenced, cause := 3 }
  else resumeSweeps (modLine ch p fun l => { l with st := .enabled, cause := 0 }) p

/-- DISABLE of a line port: outstanding requests are answered as R198 answers a fence. -/
def disableLine (ch : Chip) (p : Nat) : Chip :=
  let l := getLine ch p
  if l.st = .enabled then
    let cause := if lineHasWork l then 4 else 0
    pauseSweeps (modLine (lineAbort ch p stAborted) p fun l => { l with st := .disabled, cause := cause }) p
  else modLine (liftPortFence ch (srcLine p)) p fun l => { l with st := .disabled }

/-- State, cause and clocks of a port. -/
def portView (ch : Chip) (kind p : Nat) : PortState × Nat × Nat × Nat :=
  if kind = 0 then
    let pt := getPort ch p
    (pt.st, pt.cause, pt.recs.length, bitIf pt.piClk 0 ||| bitIf pt.peClk 1)
  else
    let l := getLine ch p
    (l.st, l.cause, 0, bitIf l.clk 0)

/-- KIND and PORT are in range. -/
def portKindOk (kind p : Nat) : Bool := (kind = 0 && p < 64) || (kind = 1 && p < 32)

/-- The checks of XN_PORT_CTL. -/
def portCtlFail (ch : Chip) (kind p action : Nat) : Option Reply :=
  let v := portView ch kind p
  if !portKindOk kind p || action = 0 || 3 < action then some (failAt 1 stBadField)
  else if (action = 1 && v.1 != .disabled) || (action = 3 && v.1 != .fenced) || (action = 2 && v.1 = .disabled) then
    some (failAt 2 stDenied)
  else if action = 3 && v.2.1 = 3 then some (failAt 3 stDenied)
  else if action != 2 && v.2.2.2 != (if kind = 0 then 3 else 1) then some (failAt 4 stBusy)
  else none

/-- The action of XN_PORT_CTL. While HOST_RST_N is low every port stays disabled (R475): an ENABLE that runs then does nothing (log
entry 168). -/
def portAct (ch : Chip) (kind p action : Nat) : Chip :=
  if ch.ctl.hostReset && action != 2 then ch
  else if kind = 0 then (if action = 2 then disablePort ch p else openPort ch p)
  else (if action = 2 then disableLine ch p else openLine ch p)

/-- XN_PORT_CTL. -/
def execXnPortCtl (mb : Fin 1028) (s : State) : Out :=
  onState s fun s => runCommand s mb (isOp 0x0103) [(0x10, 24)] fun s c =>
    let kind := cb c.cmd 0x10 1
    let p := cb c.cmd 0x11 1
    match portCtlFail s.chip kind p (cb c.cmd 0x12 1) with
    | some r => (s, .reply r)
    | none =>
      let ch := portAct s.chip kind p (cb c.cmd 0x12 1)
      let v := portView ch kind p
      ({ s with chip := ch }, .reply (okWith (rb 0x10 1 kind ||| rb 0x11 1 p ||| rb 0x12 1 (portCode v.1) ||| rb 0x14 2 v.2.2.1)))

/-- XN_PORT_QUERY. -/
def execXnPortQuery (mb : Fin 1028) (s : State) : Out :=
  onState s fun s => runCommand s mb (isOp 0x0104) [(0x10, 16)] fun s c =>
    let kind := cb c.cmd 0x10 1
    let p := cb c.cmd 0x11 1
    if !portKindOk kind p then (s, .reply (failAt 1 stBadField))
    else
      let v := portView s.chip kind p
      (s, .reply (okWith (rb 0x10 1 kind ||| rb 0x11 1 p ||| rb 0x12 1 (portCode v.1) ||| rb 0x13 1 v.2.1 |||
        rb 0x14 2 v.2.2.1 ||| rb 0x16 1 v.2.2.2)))

/-! ### Commanded zeroization and the factory lock -/

/-- CONFIRM of R268, "DOLHA-ZZ". -/
def confirmZeroize : Nat := ofLE [0x44, 0x4F, 0x4C, 0x48, 0x41, 0x2D, 0x5A, 0x5A]
/-- CONFIRM of R269, "DOLHA-FL". -/
def confirmLock : Nat := ofLE [0x44, 0x4F, 0x4C, 0x48, 0x41, 0x2D, 0x46, 0x4C]

/-- The effect of XN_DEVICE_ZEROIZE and XN_OFFICER_ZEROIZE (R268): FK_CMD_ZEROIZE from the command source of the level.
Under a reaction, LEVEL 0x01 changes nothing. -/
def zeroizeCommand (s : State) (c : Call) : State × Act :=
  let level := cb c.cmd 0x10 1
  if level != 1 && level != 2 then (s, .reply (failAt 1 stBadField))
  else if cb c.cmd 0x18 8 != confirmZeroize then (s, .reply (failAt 2 stBadField))
  else
    let s := if level = 1 && halted s.chip then s
      else settleRng (report s (srcSub (if level = 1 then 0x0B else 0x0C)) fkCmdZeroize (ctxPlain c.mb))
    (s, .reply (okWith (rb 0x10 1 level)))

/-- XN_DEVICE_ZEROIZE. -/
def execXnDeviceZeroize (mb : Fin 1028) (s : State) : Out :=
  onState s fun s => runCommand s mb (isOp 0x0105) [(0x10, 8), (0x18, 64)] zeroizeCommand

/-- XN_OFFICER_ZEROIZE. -/
def execXnOfficerZeroize (mb : Fin 1028) (s : State) : Out :=
  onState s fun s => runCommand s mb (isOp 0x0C07) [(0x10, 8), (0x18, 64)] zeroizeCommand

/-- XN_FACTORY_LOCK: `ok` is whether the fuse reads back as blown. -/
def execXnFactoryLock (mb : Fin 1028) (ok : Bool) (s : State) : Out :=
  onState s fun s => runCommand s mb (isOp 0x0106) [(0x10, 64)] fun s c =>
    if cb c.cmd 0x10 8 != confirmLock then (s, .reply (failAt 1 stBadField))
    else if !ok then (s, .reply (failAt 2 stDenied))
    else ({ s with otp := { s.otp with locked := true }, chip := event s.chip 0x000A 0 none [] }, .reply {})

end Sys2Proof.Machine
end

