-- ==== Sys2Proof/Machine/TenantCmds.lean ====
section
/-! DEFINITION. The tenant commands of group 0x02 (12_commands_keys.md, R270 to R274; R226, R227, R233 and R236 of
10_tenants.md). -/

namespace Sys2Proof.Machine

/-- R261: a command on a tenant page names that tenant. -/
def ownTenant (mb t : Nat) : Bool := 1024 ≤ mb || mb = t

/-- The tenant owns an enabled region. -/
def ownsRegion (ch : Chip) (t : Nat) : Bool := ch.cfg.regions.any fun e => rgKind e.2 = 1 && rgTenant e.2 = t

/-- Pins that a tenant holds (R125). -/
def pinsHeld (ch : Chip) (t : Nat) : Nat :=
  (ch.keys.pins.filter fun e => match e.2 with
    | some (slot, _, _) => dTenant (slotDesc ch slot) = t
    | none => false).length

/-! ### Enable, disable, reset -/

/-- XN_TENANT_ENABLE. -/
def execXnTenantEnable (mb : Fin 1028) (s : State) : Out :=
  onState s fun s => runCommand s mb (isOp 0x0201) [(0x10, 10)] fun s c =>
    let t := cb c.cmd 0x10 2
    let tn := getTenant s.chip t
    if tn.st != .disabled then (s, .reply (failAt 1 stDenied))
    else if s.chip.live2 then (s, .reply (failAt 2 stGenBusy))
    else
      let ch := newGeneration (setTenant s.chip t { tn with st := .enabled }) id
      ({ s with chip := ch }, .reply (okWith (rb 0x10 2 t ||| rb 0x12 1 tn.epoch)))

/-- The own checks of XN_TENANT_DISABLE, with the job of R249 and the tests of R263. -/
def disableFail (ch : Chip) (mb t : Nat) : Option Reply :=
  let n := ch.keys.session
  match (getTenant ch t).st with
  | .disabled => some (failAt 1 stDenied)
  | .resetting => some (failAt 1 stBusy)
  | _ =>
    if ownsRegion ch t then some (failAt 2 stBusy)
    else if sessionOpen n && n.purpose = 1 && n.tenant = t then some (failAt 3 stDualPending)
    else if !jobFree ch mb then some { status := stNoResource, detail := 0x7D }
    else vaultRefusal ch

/-- XN_TENANT_DISABLE: the reset starts, and its job ends when the tenant is DISABLED. -/
def execXnTenantDisable (mb : Fin 1028) (s : State) : Out :=
  onState s fun s => runCommand s mb (isOp 0x0202) [(0x10, 10)] fun s c =>
    let t := cb c.cmd 0x10 2
    match disableFail s.chip mb t with
    | some r => (s, .reply r)
    | none =>
      let job := startJob s.chip mb 0x0202
      let ch := modTenant job.2 t fun tn => { tn with job := some job.1, causes := [] }
      let ch := tenantReset ch t 2 4 []
      ({ s with chip := ch },
        .reply { status := stInProgress, job := job.1.toNat, result := rb 0x10 1 (getTenant ch t).epoch })

/-- Check 1 of XN_TENANT_RESET (R272). -/
def resetFail (ch : Chip) (t : Nat) : Option Reply :=
  let tn := getTenant ch t
  match tn.st with
  | .enabled => none
  | .faulted => if tn.causes.any fun ix => (getSticky ch ix).bit then some (failAt 1 stBusy) else none
  | .resetting => some (failAt 1 stBusy)
  | .disabled => some (failAt 1 stDenied)

/-- XN_TENANT_RESET: the response waits for the end of the sweep. -/
def execXnTenantReset (mb : Fin 1028) (s : State) : Out :=
  onState s fun s => runCommand s mb (isOp 0x0203) [(0x10, 10)] fun s c =>
    let t := cb c.cmd 0x10 2
    if !ownTenant mb t then (s, .reply (failAt 1 stDenied))
    else
      match resetFail s.chip t with
      | some r => (s, .reply r)
      | none =>
        let old := (getTenant s.chip t).epoch
        let ch := modTenant s.chip t fun tn => { tn with causes := [] }
        let ch := tenantReset ch t 1 (if mb.val < 1024 then 2 else 1) []
        ({ s with chip := ch }, .wait (.sweep t old))

/-! ### XN_TENANT_QUERY (Table 12.6) -/

def tenantPart0 (ch : Chip) (t : Nat) : Nat :=
  let tn := getTenant ch t
  let reqs := ch.ports.foldl (fun n e => n + (e.2.reqs.filter fun q => sbTenant q.sb = t).length) 0
  rb 0x10 2 t ||| rb 0x12 1 (tenantCode tn.st) ||| rb 0x13 1 tn.epoch ||| rb 0x14 1 (bitIf tn.alarm 0) |||
    rb 0x15 1 tn.cause ||| rb 0x18 4 reqs ||| rb 0x1C 4 (pinsHeld ch t) ||| rb 0x20 2 (rangesOf ch t).length |||
    rb 0x22 2 tn.authCount

def tenantPart2 (ch : Chip) (t : Nat) : Nat :=
  let c := tenantCfg ch.cfg t
  let tn := getTenant ch t
  rb 0x10 2 c.holdLimit ||| rb 0x12 1 (bitIf c.noHold 0 ||| bitIf c.clearDek 1) ||| rb 0x13 1 c.modes |||
    rb 0x14 21 c.budgets.toNat ||| rb 0x2A 1 c.accQuota ||| rb 0x2B 1 c.patQuota ||| rb 0x2C 2 c.rangeQuota |||
    rb 0x2E 2 tn.authLimit ||| rb 0x30 1 (bitIf tn.authFault 0)

/-- XN_TENANT_QUERY. -/
def execXnTenantQuery (mb : Fin 1028) (s : State) : Out :=
  onState s fun s => runCommand s mb (isOp 0x0204) [(0x10, 10), (0x12, 8)] fun s c =>
    let t := cb c.cmd 0x10 2
    let part := cb c.cmd 0x12 1
    if !ownTenant mb t then (s, .reply (failAt 1 stDenied))
    else if 2 < part then (s, .reply (failAt 2 stBadField))
    else
      (s, .reply (okWith (if part = 0 then tenantPart0 s.chip t
        else if part = 1 then rb 0x10 32 (tenantCfg s.chip.cfg t).queues.toNat
        else tenantPart2 s.chip t)))

/-! ### XN_TENANT_SET (Table 12.7) -/

/-- A part that SELECT marks. -/
def setSel (c : CommandWord) (i : Nat) : Bool := (cb c 0x12 1).testBit i

/-- Check 1: SELECT is not zero, and unselected and reserved bytes are zero. -/
def setCheck1 (c : CommandWord) : Bool :=
  let sel := cb c 0x12 1
  let zero (i off n : Nat) : Bool := setSel c i || cb c off n = 0
  sel != 0 && sel < 64 && zero 0 0x18 32 && zero 1 0x38 2 && (setSel c 1 || !(cb c 0x3A 1).testBit 0) &&
    (setSel c 2 || !(cb c 0x3A 1).testBit 1) && cb c 0x3A 1 < 4 && zero 2 0x3B 1 && zero 3 0x3C 21 && zero 4 0x52 4 &&
    zero 5 0x56 3 && cb c 0x10 2 < 1024

/-- A queue word in range: an enabled queue carries a class. -/
def queueOk (w : Nat) : Bool := w.testBit 14 = false && bits w 4 4 = 0 && (!w.testBit 15 || bits w 0 4 != 0)

/-- Check 2: every selected value within its range. -/
def setCheck2 (c : CommandWord) : Bool :=
  ((List.range 16).all fun q => queueOk (cb c (0x18 + 2 * q) 2)) && cb c 0x38 2 ≤ 4096 && !(cb c 0x3B 1).testBit 0 &&
    cb c 0x52 1 ≤ 127 && cb c 0x53 1 ≤ 32 && cb c 0x54 2 ≤ 4096 && cb c 0x58 1 ≤ 1

/-- The tenant table entry after the selected parts other than AUTH. -/
def setTenantCfg (c : CommandWord) (k : TenantCfg) : TenantCfg :=
  let k := if setSel c 0 then { k with queues := BitVec.ofNat 256 (cb c 0x18 32) } else k
  let k := if setSel c 1 then { k with holdLimit := cb c 0x38 2, noHold := (cb c 0x3A 1).testBit 0 } else k
  let k := if setSel c 2 then { k with clearDek := (cb c 0x3A 1).testBit 1, modes := cb c 0x3B 1 } else k
  let k := if setSel c 3 then { k with budgets := BitVec.ofNat 168 (cb c 0x3C 21) } else k
  if setSel c 4 then { k with accQuota := cb c 0x52 1, patQuota := cb c 0x53 1, rangeQuota := cb c 0x54 2 } else k

/-- The AUTH part, in force from the cycle after the write (R224). -/
def setTenantAuth (c : CommandWord) (tn : Tenant) : Tenant :=
  if setSel c 5 then { tn with authLimit := cb c 0x56 2, authFault := cb c 0x58 1 = 1 } else tn

/-- A tenant's entry of a configuration after XN_TENANT_SET. -/
def cfgTenantSet (c : CommandWord) (k : Cfg) : Cfg := { k with tenants := Tbl.modify {} k.tenants (cb c 0x10 2) (setTenantCfg c) }

/-- A part other than AUTH is selected. -/
def setOther (c : CommandWord) : Bool := cb c 0x12 1 % 32 != 0

/-- The bits that XN_TENANT_SET defines. -/
def setFields : List (Nat × Nat) := [(0x10, 24), (0x18, 256), (0x38, 32), (0x3C, 168), (0x52, 56)]

/-- XN_TENANT_SET. -/
def execXnTenantSet (mb : Fin 1028) (s : State) : Out :=
  onState s fun s => runCommand s mb (isOp 0x0205) setFields fun s c =>
    if !setCheck1 c.cmd then (s, .reply (failAt 1 stBadField))
    else if !setCheck2 c.cmd then (s, .reply (failAt 2 stBadField))
    else if setOther c.cmd && s.chip.live2 then (s, .reply (failAt 3 stGenBusy))
    else
      let ch := modTenant s.chip (cb c.cmd 0x10 2) (setTenantAuth c.cmd)
      let ch := if setOther c.cmd then newGeneration ch (cfgTenantSet c.cmd) else ch
      ({ s with chip := ch }, .reply (okWith (rb 0x10 2 ch.admitGen)))

end Sys2Proof.Machine
end

