-- ==== Sys2Proof/Machine/CodingCmds.lean ====
section
/-! DEFINITION. The profile and pattern commands of group 0x07 (13_commands_data.md, R303 and R304; R155, R156, R166 and R167
of 07_shards.md; the check coefficients of R365, 16_degraded.md). -/

namespace Sys2Proof.Machine

/-! ### Profiles (R303) -/

/-- The profile word of Table 7.1. -/
def profileWord (k m : Nat) : BitVec 32 := BitVec.ofNat 32 (field 31 1 1 ||| field 8 5 k ||| field 0 4 m)

/-- PROFILE, and for a set K and M, in range (check 1). -/
def profileRangeOk (set : Bool) (c : CommandWord) : Bool :=
  cb c 0x10 1 < 64 && (!set || (2 ≤ cb c 0x11 1 && cb c 0x11 1 ≤ 24 && 1 ≤ cb c 0x12 1 && cb c 0x12 1 ≤ 8))

/-- The word after the command. -/
def profileAfter (set : Bool) (c : CommandWord) : BitVec 32 := if set then profileWord (cb c 0x11 1) (cb c 0x12 1) else 0

def openRows (ch : Chip) (prof : Nat) : Nat :=
  ch.ports.foldl (fun n e => n + (e.2.cur.rows.filter fun r => r.id.profile.val = prof).length) 0

def codingReqs (ch : Chip) (prof : Nat) : Nat :=
  ch.ports.foldl (fun n e => n + (e.2.reqs.filter fun q => isCoding (sbOp q.sb) && sbProfile q.sb = prof).length) 0

def patternsOf (ch : Chip) (prof : Nat) : Nat :=
  ch.ports.foldl (fun n e => n + (e.2.cur.patterns.filter fun x => x.2.getLsbD 0 && fld x.2 60 6 = prof).length) 0

/-- The profile is named by an open row, an admitted coding request or a valid pattern entry (R156). -/
def profileBusy (ch : Chip) (prof : Nat) : Bool := openRows ch prof != 0 || codingReqs ch prof != 0 || patternsOf ch prof != 0

/-- A configuration after XN_PROFILE_SET, with the profile's check coefficients (R365), or XN_PROFILE_CLEAR. -/
def cfgProfile (set : Bool) (c : CommandWord) (k : Cfg) : Cfg :=
  { k with
    profiles := Tbl.set 0 k.profiles (cb c 0x10 1) (profileAfter set c)
    encodeChecks := Tbl.set [] k.encodeChecks (cb c 0x10 1) (if set then encodeChecks (cb c 0x11 1) (cb c 0x12 1) else []) }

/-- XN_PROFILE_SET and XN_PROFILE_CLEAR. -/
def profileCommand (set : Bool) (s : State) (c : Call) : State × Act :=
  let ch := s.chip
  let prof := cb c.cmd 0x10 1
  if !profileRangeOk set c.cmd then (s, .reply (failAt 1 stBadField))
  else if Tbl.get (0#32) ch.cfg.profiles prof = profileAfter set c.cmd then (s, .reply {})
  else if profileBusy ch prof then (s, .reply (failAt 2 stBusy))
  else if ch.live2 then (s, .reply (failAt 3 stGenBusy))
  else ({ s with chip := newGeneration ch (cfgProfile set c.cmd) }, .reply {})

/-- XN_PROFILE_SET. -/
def execXnProfileSet (mb : Fin 1028) (s : State) : Out :=
  onState s fun s => runCommand s mb (isOp 0x0701) [(0x10, 8), (0x11, 8), (0x12, 8)] (profileCommand true)

/-- XN_PROFILE_CLEAR. -/
def execXnProfileClear (mb : Fin 1028) (s : State) : Out :=
  onState s fun s => runCommand s mb (isOp 0x0702) [(0x10, 8)] (profileCommand false)

/-- XN_PROFILE_QUERY. -/
def execXnProfileQuery (mb : Fin 1028) (s : State) : Out :=
  onState s fun s => runCommand s mb (isOp 0x0703) [(0x10, 8)] fun s c =>
    let ch := s.chip
    let prof := cb c.cmd 0x10 1
    if 64 ≤ prof then (s, .reply (failAt 1 stBadField))
    else (s, .reply (okWith (rb 0x10 4 (Tbl.get (0#32) ch.cfg.profiles prof).toNat ||| rb 0x14 2 (openRows ch prof) |||
      rb 0x16 2 (codingReqs ch prof) ||| rb 0x18 2 (patternsOf ch prof))))

/-! ### Erasure patterns (R304) -/

/-- The header of an entry. -/
def patternOf (ch : Chip) (port entry : Nat) : BitVec 256 := Tbl.get 0 (getPort ch port).cur.patterns entry

/-- TENANT, PORT and ENTRY in range. -/
def patternRangeOk (c : CommandWord) : Bool := cb c 0x10 2 < 1024 && cb c 0x12 1 < 64 && cb c 0x13 1 < 32

/-- The entry is VALID for a tenant other than the one named. -/
def patternForeign (ch : Chip) (c : CommandWord) : Bool :=
  let h := patternOf ch (cb c 0x12 1) (cb c 0x13 1)
  h.getLsbD 0 && fld h 66 10 != cb c 0x10 2

/-- R261 and R292 on a tenant page. -/
def patternDenied (ch : Chip) (mb : Nat) (c : CommandWord) : Bool :=
  !ownTenant mb (cb c 0x10 2) || (mb < 1024 && patternRangeOk c && patternForeign ch c)

/-- An admitted DECODE or REBUILD names the entry. -/
def patternInUse (ch : Chip) (port entry : Nat) : Bool :=
  (getPort ch port).reqs.any fun q => (sbOp q.sb = opDecode || sbOp q.sb = opRebuild) && sbShard q.sb = entry

/-- Valid entries of a tenant in a Currant. -/
def patternsHeld (ch : Chip) (port t : Nat) : Nat :=
  ((getPort ch port).cur.patterns.filter fun x => x.2.getLsbD 0 && fld x.2 66 10 = t).length

/-- Positions erased. -/
def erasedCount (mask : Nat) : Nat := (maskPositions 32 mask).length

/-- Check 1 of XN_PATTERN_LOAD. -/
def patternLoadOk (ch : Chip) (c : CommandWord) : Bool :=
  let prof := cb c 0x14 1
  let erased := cb c 0x18 4
  patternRangeOk c && prof < 64 && profValid ch.cfg prof && erased >>> (profK ch.cfg prof + profM ch.cfg prof) = 0 &&
    erasedCount erased ≤ profM ch.cfg prof

/-- The header that a load writes (Table 7.3). -/
def patternHeader (k m : Nat) (c : CommandWord) : BitVec 256 :=
  let erased := cb c 0x18 4
  BitVec.ofNat 256 (field 128 32 (positionsMask (readSet k m erased)) ||| field 96 32 erased ||| field 66 10 (cb c 0x10 2) |||
    field 60 6 (cb c 0x14 1) ||| field 56 4 (erasedCount erased) ||| field 0 1 1)

/-- Load an entry: header, coefficients and check coefficients (R166, R365). -/
def loadPattern (ch : Chip) (c : CommandWord) : Chip :=
  let prof := cb c 0x14 1
  let k := profK ch.cfg prof
  let m := profM ch.cfg prof
  let entry := cb c 0x13 1
  let rows := patternCoefs k m (cb c 0x18 4)
  let epoch := (getTenant ch (cb c 0x10 2)).epoch
  modPort ch (cb c 0x12 1) fun pt =>
    { pt with cur := { pt.cur with
        patterns := Tbl.set 0 pt.cur.patterns entry (patternHeader k m c)
        coefs := Tbl.set [] pt.cur.coefs entry rows
        checks := Tbl.set [] pt.cur.checks entry (checkColumn k rows)
        epochs := Tbl.set 0 pt.cur.epochs entry epoch } }

/-- Checks 1 to 5 of XN_PATTERN_LOAD. -/
def patternLoadFail (ch : Chip) (c : CommandWord) : Option Reply :=
  let t := cb c 0x10 2
  let port := cb c 0x12 1
  let entry := cb c 0x13 1
  let own := (patternOf ch port entry).getLsbD 0
  if !patternLoadOk ch c then some (failAt 1 stBadField)
  else if patternForeign ch c then some (failAt 2 stDenied)
  else if patternInUse ch port entry then some (failAt 3 stBusy)
  else if !own && (tenantCfg ch.cfg t).patQuota ≤ patternsHeld ch port t then some (failAt 4 stNoResource)
  else if currantDown ch port then some (failAt 5 stBusy)
  else none

/-- XN_PATTERN_LOAD. -/
def execXnPatternLoad (mb : Fin 1028) (s : State) : Out :=
  onState s fun s => runCommand s mb (isOp 0x0704) [(0x10, 16), (0x12, 8), (0x13, 8), (0x14, 8), (0x18, 32)] fun s c =>
    if patternDenied s.chip mb c.cmd then (s, .reply (failAt 1 stDenied))
    else
      match patternLoadFail s.chip c.cmd with
      | some r => (s, .reply r)
      | none =>
        let ch := loadPattern s.chip c.cmd
        let h := patternOf ch (cb c.cmd 0x12 1) (cb c.cmd 0x13 1)
        ({ s with chip := ch }, .reply (okWith (rb 0x10 1 (cb c.cmd 0x12 1) ||| rb 0x11 1 (cb c.cmd 0x13 1) |||
          rb 0x14 4 (fld h 128 32) ||| rb 0x18 1 (fld h 56 4))))

/-- XN_PATTERN_CLEAR. -/
def execXnPatternClear (mb : Fin 1028) (s : State) : Out :=
  onState s fun s => runCommand s mb (isOp 0x0705) [(0x10, 16), (0x12, 8), (0x13, 8)] fun s c =>
    let ch := s.chip
    let port := cb c.cmd 0x12 1
    let entry := cb c.cmd 0x13 1
    if patternDenied ch mb c.cmd then (s, .reply (failAt 1 stDenied))
    else if !patternRangeOk c.cmd then (s, .reply (failAt 1 stBadField))
    else if !(patternOf ch port entry).getLsbD 0 then (s, .reply {})
    else if patternForeign ch c.cmd then (s, .reply (failAt 2 stDenied))
    else if patternInUse ch port entry then (s, .reply (failAt 3 stBusy))
    else
      let ch := modPort ch port fun pt => { pt with cur := { pt.cur with patterns := Tbl.set 0 pt.cur.patterns entry 0 } }
      ({ s with chip := ch }, .reply {})

/-- XN_PATTERN_QUERY. -/
def execXnPatternQuery (mb : Fin 1028) (s : State) : Out :=
  onState s fun s => runCommand s mb (isOp 0x0706) [(0x10, 16), (0x12, 8), (0x13, 8)] fun s c =>
    let ch := s.chip
    let h := patternOf ch (cb c.cmd 0x12 1) (cb c.cmd 0x13 1)
    if patternDenied ch mb c.cmd then (s, .reply (failAt 1 stDenied))
    else if !patternRangeOk c.cmd then (s, .reply (failAt 1 stBadField))
    else if patternForeign ch c.cmd then (s, .reply (failAt 2 stDenied))
    else (s, .reply (okWith (if h.getLsbD 0 then rb 0x10 32 h.toNat else 0)))

end Sys2Proof.Machine
end

