-- ==== Sys2Proof/Machine/FaultCmds.lean ====
section
/-! DEFINITION. The commands of faults and units, group 0x0A (13_commands_data.md, R314 to R318; R372, R378 of
16_degraded.md; R420 and R427 of 19_persistence.md). -/

namespace Sys2Proof.Machine

/-! ### Sources (R314, R315) -/

/-- RESULT of XN_FAULT_QUERY (Table 13.10). -/
def faultView (s : State) (src ix : Nat) : Nat :=
  let ch := s.chip
  let f := getSrc ch src
  rb 0x10 2 src ||| rb 0x12 1 (bitIf (getSticky ch ix).bit 0) ||| rb 0x13 1 (sevOf ch ix) ||| rb 0x14 1 (floorSev ix) |||
    rb 0x15 1 (bitIf (rindDisabled s src) 0 ||| bitIf f.conseq 1) ||| rb 0x16 2 f.rep ||| rb 0x18 1 f.kind |||
    rb 0x19 1 f.seen ||| rb 0x1C 4 f.ctx.toNat

/-- XN_FAULT_QUERY. -/
def execXnFaultQuery (mb : Fin 1028) (s : State) : Out :=
  onState s fun s => runCommand s mb (isOp 0x0A01) [(0x10, 16)] fun s c =>
    let src := cb c.cmd 0x10 2
    match srcSticky src with
    | none => (s, .reply (failAt 1 stBadField))
    | some ix => (s, .reply (okWith (faultView s src ix)))

/-- The checks of XN_FAULT_SEVERITY; the sticky index when they pass. -/
def severityCheck (s : State) (c : CommandWord) : Except Reply Nat :=
  let src := cb c 0x10 2
  let sev := cb c 0x12 1
  match srcSticky src with
  | none => .error (failAt 1 stBadField)
  | some ix =>
    if 4 < sev then .error (failAt 1 stBadField)
    else if sev < floorSev ix then .error (failAt 2 stDenied)
    else if rindDisabled s src then .error (failAt 3 stDenied)
    else .ok ix

/-- The severity of a sticky index changes. -/
def setSeverity (ch : Chip) (ix sev : Nat) : Chip := setSticky ch ix { getSticky ch ix with sev := some sev }

/-- XN_FAULT_SEVERITY. -/
def execXnFaultSeverity (mb : Fin 1028) (s : State) : Out :=
  onState s fun s => runCommand s mb (isOp 0x0A02) [(0x10, 16), (0x12, 8)] fun s c =>
    match severityCheck s c.cmd with
    | .error r => (s, .reply r)
    | .ok ix => ({ s with chip := setSeverity s.chip ix (cb c.cmd 0x12 1) }, .reply {})

/-! ### Units (R316, R317) -/

/-- The unit of levels 3 to 5 that an ID names; a level-3 unit is the slice or Currant that holds it (R372). -/
def unitNamed (id : Nat) : Option Nat := if 3 ≤ srcLevel id && srcLevel id ≤ 5 then srcUnit id else none

/-- RESULT of XN_UNIT_QUERY. -/
def unitView (ch : Chip) (id : Nat) : Nat :=
  let u := getUnit ch id
  rb 0x12 1 (stateCode u.live) ||| rb 0x13 1 (stateCode u.mirror) ||| rb 0x14 2 u.sgen |||
    rb 0x16 1 (u.resets.filter fun t => nowUs ch < t + 1000000).length ||| rb 0x17 1 u.cause

/-- XN_UNIT_QUERY. -/
def execXnUnitQuery (mb : Fin 1028) (s : State) : Out :=
  onState s fun s => runCommand s mb (isOp 0x0A03) [(0x10, 16)] fun s c =>
    match unitNamed (cb c.cmd 0x10 2) with
    | none => (s, .reply (failAt 1 stBadField))
    | some id => (s, .reply (okWith (unitView s.chip id)))

/-- SGEN and LIVE of a unit, as every response to a fence or revive carries them. -/
def unitEcho (ch : Chip) (id : Nat) (r : Reply) : Reply :=
  let u := getUnit ch id
  { r with result := rb 0x10 2 u.sgen ||| rb 0x12 1 (stateCode u.live) }

/-- A device that fails discovery at a revive raises FK_FLASH from its controller (R420, R421). -/
def reviveFault (s : State) (id : Nat) (r : Reply) : State :=
  if isUnit5 5 id && r.detail = 0x86 then
    { s with chip := raise s.chip (srcXspi (unitIndex id)) fkFlash (ctxPlain (unitIndex id)) }
  else s

/-- XN_UNIT_FENCE and XN_UNIT_REVIVE as R317 and R378 order their checks; a unit already as asked is left unchanged. A unit
being reset is not yet fenced, and a fence of it waits (R353). -/
def unitCommand (fence : Bool) (check : State → Nat → Option Reply) (act : State → Nat → State) (s : State) (c : Call) :
    State × Act :=
  match unitNamed (cb c.cmd 0x10 2) with
  | none => (s, .reply (failAt 1 stBadField))
  | some id =>
    let u := getUnit s.chip id
    if u.msgen != cb c.cmd 0x12 2 then (s, .reply (unitEcho s.chip id (failAt 2 stStateMoved)))
    else if decide (2 ≤ strictness u.live && !(fence && u.resetting && u.fenceNext.isNone)) = fence then (s, .reply (unitEcho s.chip id {}))
    else
      match check s id with
      | some r =>
        let s := if fence then s else reviveFault s id r
        (s, .reply (unitEcho s.chip id r))
      | none =>
        -- The order is stamped with the SGEN checked, and applied only if the live table still shows it (R378).
        if u.sgen != u.msgen then
          let ch := restoreMirror s.chip id
          ({ s with chip := ch }, .reply (unitEcho ch id (failAt 2 stStateMoved)))
        else
          let s := act s id
          (s, .reply (unitEcho s.chip id {}))

/-- Check 3: the last unfenced stream cluster. -/
def fenceCheck (s : State) (id : Nat) : Option Reply :=
  if isUnit5 0 id && !otherClusters s.chip (unitIndex id) then some (failAt 3 stDenied) else none

/-- A commanded fence. The control port is reset instead (Table 15.6); a fence during a reset waits for its end (R353). -/
def fenceAct (s : State) (id : Nat) : State :=
  if isUnit5 6 id then (if (getUnit s.chip id).resetting then s else { s with chip := doReset s.chip id })
  else if (getUnit s.chip id).resetting then { s with chip := fenceLater s.chip id 3 }
  else settleRng (doFence s id 3)

/-- XN_UNIT_FENCE. -/
def execXnUnitFence (mb : Fin 1028) (s : State) : Out :=
  onState s fun s => runCommand s mb (isOp 0x0A04) [(0x10, 16), (0x12, 16)] (unitCommand true fenceCheck fenceAct)

/-- Checks 4 to 6: the sticky bit of the unit, its lanes and cells; the cause of its fence; its known-answer tests. -/
def reviveCheck (pass : Bool) (s : State) (id : Nat) : Option Reply :=
  let u := getUnit s.chip id
  let sticky := match srcSticky id with | some ix => (getSticky s.chip ix).bit | none => false
  if sticky then some (failAt 4 stBusy)
  else if u.live != .down || u.mirror != .down then some (failAt 5 stDenied)
  else if !pass then some (failAt 6 stDenied)
  else none

/-- What a revived unit returns to (R372): a port is DISABLED, and a flash device starts its mirror recovery (R427). The ports
of a revived group keep their own fences until each is revived (log entry 134). -/
def reviveAct (s : State) (id : Nat) : State :=
  let ch := changeUnit s.chip id (afterReset s.chip id) 0
  let ch := setUnit ch id { getUnit ch id with resets := [] }
  let i := unitIndex id
  let down (ch : Chip) (p : Nat) : Chip := modLine ch p fun l => { l with st := .disabled, cause := 0 }
  let ch :=
    if isUnit5 1 id then modPort ch i fun pt => { pt with st := .disabled, cause := 0, pe := {} }
    else if isUnit5 3 id then down ch i
    else ch
  let s := { s with chip := checkOvercommit (updateReplace ch) }
  if isUnit5 5 id then
    let d : Fin 2 := if i = 0 then 0 else 1
    let other := getXspi s.chip (if i = 0 then 1 else 0)
    let start := decide (s.chip.dstate != 0) && other.inService && !(getXspi s.chip d).inService
    let s := { s with chip := modXspi s.chip d fun x =>
      { x with answers := true, recovery := if start then some 1 else x.recovery } }
    if start then recoveryStep s d else s
  else s

/-- XN_UNIT_REVIVE: `pass` is whether the unit passes its known-answer tests, or its device its discovery. -/
def execXnUnitRevive (mb : Fin 1028) (pass : Bool) (s : State) : Out :=
  onState s fun s => runCommand s mb (isOp 0x0A05) [(0x10, 16), (0x12, 16)] (unitCommand false (reviveCheck pass) reviveAct)

/-! ### XN_FAULT_CTL (R318) -/

/-- Unselected fields are zero, and the others in range. -/
def faultCtlOk (c : CommandWord) : Bool :=
  let sel := cb c 0x10 1
  let settle := cb c 0x12 2
  let level := cb c 0x14 2
  sel < 4 && (if sel.testBit 0 then 1 ≤ settle && settle ≤ 400 else settle = 0) &&
    (if sel.testBit 1 then 820 ≤ level && level ≤ 1024 else level = 0)

/-- The selected values are in force. -/
def applyFaultCtl (ch : Chip) (c : CommandWord) : Chip :=
  let sel := cb c 0x10 1
  let f := ch.faults
  let f := if sel.testBit 0 then { f with settle := cb c 0x12 2 } else f
  let f := if sel.testBit 1 then { f with replaceLevel := cb c 0x14 2 } else f
  { ch with faults := f }

/-- The bits that XN_FAULT_CTL defines. -/
def faultCtlFields : List (Nat × Nat) := [(0x10, 2), (0x12, 16), (0x14, 16)]

/-- XN_FAULT_CTL. -/
def execXnFaultCtl (mb : Fin 1028) (s : State) : Out :=
  onState s fun s => runCommand s mb (isOp 0x0A06) faultCtlFields fun s c =>
    if !faultCtlOk c.cmd then (s, .reply (failAt 1 stBadField))
    else
      let ch := updateReplace (applyFaultCtl s.chip c.cmd)
      ({ s with chip := ch }, .reply (okWith (rb 0x12 2 ch.faults.settle ||| rb 0x14 2 ch.faults.replaceLevel)))

end Sys2Proof.Machine
end

