-- ==== Sys2Proof/Machine/KeyCmds.lean ====
section
/-! DEFINITION. The key commands of group 0x03 and the counter commands of group 0x04 (12_commands_keys.md, R275 to R285;
R110, R111, R115, R119 to R125 of 05_keys.md). -/

namespace Sys2Proof.Machine

/-- A slot lies in a tenant's key slot quota (R115). -/
def inSlotQuota (c : TenantCfg) (k : Nat) : Bool := c.slotBase ≤ k && k < c.slotBase + c.slotSize

/-- A check value as a response field: the first byte at the lowest offset (R121). -/
def kcvNum (key : List Byte) : Nat := ofLE (kcv key)

/-! ### DKB1 blobs (Tables 5.2, 5.3) -/

/-- BLOBLEN and the BLOB words (R262): the words of the blob are written, and no later one. -/
def blobWords (b : Tbl (Option Word64)) (len : Nat) : Bool :=
  (List.range 16).all fun i => (Tbl.get none b i).isSome = decide (i < ceilDiv len 8)

/-- The bytes of the blob. -/
def blobBytes (b : Tbl (Option Word64)) (len : Nat) : List Byte :=
  ((List.range 16).flatMap fun i => bvBytes 8 ((Tbl.get none b i).getD 0)).take len

/-- The attributes of a data or line key. -/
structure KeyAttr where
  mode : Nat
  usize : Nat
  ops : Nat
  budget : Nat
  family : Nat
  key : List Byte
  /-- Type, tenant, KEK slot and reserved bytes are as they must be. -/
  framed : Bool
deriving DecidableEq, Repr

/-- The attributes that a DKB1 plaintext carries, for a tenant and a KEK slot. -/
def blobAttr (pt : List Byte) (t kekslot : Nat) : KeyAttr :=
  let n := ofLE (pt.take 16)
  { mode := bits n 0 4, usize := bits n 8 3, ops := bits n 16 5, budget := bytesAt n 8 3, family := ofLE ((pt.drop 16).take 16)
    key := pt.drop 32
    framed := bits n 4 4 = 0 && bits n 11 5 = 0 && bits n 21 11 = 0 && bytesAt n 4 2 = t && bytesAt n 6 1 = kekslot &&
      bytesAt n 7 1 = 0 && bytesAt n 11 1 = 0 && (pt.drop 12).take 4 = magicDkb1 }

/-- USIZE is valid for a MODE (Table 5.5). -/
def usizeOk (mode usize : Nat) : Bool := usize ≤ 4 && (isXts mode || usize = 0)

/-- Check 7 of Table 5.7. A blob whose key bytes are not those of its MODE (Table 5.3) fails here. -/
def attrOk (a : KeyAttr) : Bool :=
  a.framed && 1 ≤ a.mode && a.mode ≤ 7 && usizeOk a.mode a.usize && (a.ops ||| opsAllowed a.mode) = opsAllowed a.mode &&
    (isTagged a.mode || a.family = 0) && a.key.length = keyBytesOf a.mode

/-- Check 8: K1 differs from K2 (R57). -/
def keysDiffer (a : KeyAttr) : Bool := !isXts a.mode || keyK1 a.mode a.key != keyK2 a.mode a.key

/-- Checks 7 to 9 of Table 5.7. -/
def attrFail (c : TenantCfg) (a : KeyAttr) : Option Reply :=
  if !attrOk a then some (failAt 7 stBadField)
  else if !keysDiffer a then some (failAt 8 stBadField)
  else if !c.modes.testBit a.mode then some (failAt 9 stDenied)
  else none

/-- BUDGET of an installed key: zero takes the tenant's default (R126). -/
def budgetOf (ch : Chip) (t : Nat) (a : KeyAttr) : Nat := if a.budget = 0 then defaultBudget ch t a.mode else a.budget

/-- A KEK slot of a tenant is ACTIVE. -/
def kekActive (ch : Chip) (idx : Nat) : Bool := (getKek ch idx).source != 0

/-- The plaintext of a blob under a KEK (check 6). -/
def unwrapKek (ch : Chip) (idx : Nat) (blob : List Byte) : Option (List Byte) :=
  (kekKey ch idx).bind fun k => kwUnwrap k blob

/-! ### XN_KEY_INSTALL (Table 5.7, R275) -/

/-- Check 1: CK exists and a device secret is in use. -/
def custodyFail (ch : Chip) : Option Reply :=
  if ch.keys.ck.isNone then some (failAt 1 stRngUnseeded)
  else if 4 ≤ ch.keys.secretGen then some (failAt 1 stDenied)
  else none

/-- Checks 1 to 3. -/
def installFail (ch : Chip) (t k : Nat) : Option Reply :=
  match custodyFail ch with
  | some r => some r
  | none =>
    let st := dState (slotDesc ch k)
    if !inSlotQuota (tenantCfg ch.cfg t) k then some (failAt 2 stKeyOwner)
    else if st = ssEmpty then none
    else some (failAt 3 (if st = ssLoading || st = ssActive then stDenied else stKeyRetiring))

/-- The attributes from a DKB1 blob: checks 4 to 6. KEKSLOT has four bits (DEDUCED, log entry
37). -/
def attrFromBlob (ch : Chip) (t : Nat) (c : Call) : Except Reply KeyAttr :=
  let kekslot := cb c.cmd 0x15 1
  let idx := 16 * t + kekslot
  let len := cb c.cmd 0x16 2
  if !kekActive ch idx then .error (failAt 4 stKeyEmpty)
  else if !(len = 56 || len = 72 || len = 104) || !blobWords c.blob len then .error (failAt 5 stBadField)
  else
    match unwrapKek ch idx (blobBytes c.blob len) with
    | none => .error (failAt 6 stAuthFail)
    | some pt =>
      let a := blobAttr pt t kekslot
      .ok { a with framed := a.framed && cb c.cmd 0x18 24 = 0 }

/-- The attributes of a clear install from the command and KEY_DATA: checks 4 and 5. -/
def attrFromClear (ch : Chip) (t : Nat) (c : Call) : Except Reply KeyAttr :=
  let m := getMb ch c.mb
  let mode := cb c.cmd 0x18 1
  let n := keyBytesOf mode / 8
  if !(tenantCfg ch.cfg t).clearDek then .error (failAt 4 stDenied)
  else if 1 ≤ mode && mode ≤ 7 && !((List.range 8).all fun i => wordWritten m i = decide (i < n)) then
    .error (failAt 5 stBadField)
  else
    .ok { mode := mode, usize := cb c.cmd 0x19 1, ops := cb c.cmd 0x1A 1, budget := cb c.cmd 0x1C 3
          family := cb c.cmd 0x20 16, key := keyDataBytes m n, framed := cb c.cmd 0x15 3 = 0 }

/-- The slot becomes ACTIVE in one write (R119). -/
def fillSlot (ch : Chip) (t k : Nat) (a : KeyAttr) (clear : Bool) (kekslot : Nat) : Chip :=
  match ch.keys.ck with
  | none => ch
  | some ck =>
    let group := !clear && (getKek ch (16 * t + kekslot)).source = 2
    let d := mkDesc ssActive t (dKgen (slotDesc ch k)) a.mode a.usize a.ops (bitIf group 0) (bitIf clear 0) kekslot
      (budgetOf ch t a) (BitVec.ofNat 128 a.family)
    storeSlot (setDesc ch k d) ck k a.key

/-- XN_KEY_INSTALL. -/
def execXnKeyInstall (mb : Fin 1028) (s : State) : Out :=
  onState s fun s => runCommand s mb (isOp 0x0301)
      [(0x10, 20), (0x14, 8), (0x15, 8), (0x16, 16), (0x18, 24), (0x1C, 24), (0x20, 128)] fun s c =>
    let ch := s.chip
    let t := mb.val
    let k := cb c.cmd 0x10 4
    let source := cb c.cmd 0x14 1
    if source = 0 && 15 < cb c.cmd 0x15 1 then (s, .reply { status := stBadField, detail := 0x80 }) else
    match installFail ch t k with
    | some r => (s, .reply r)
    | none =>
      match (if source = 0 then attrFromBlob ch t c else if source = 1 then attrFromClear ch t c
          else .error (failAt 4 stBadField)) with
      | .error r => (s, .reply r)
      | .ok a =>
        match attrFail (tenantCfg ch.cfg t) a with
        | some r => (s, .reply r)
        | none =>
          let ch := fillSlot ch t k a (source = 1) (cb c.cmd 0x15 1)
          ({ s with chip := ch }, .reply (okWith (rb 0x10 4 k ||| rb 0x14 1 (dKgen (slotDesc ch k)) |||
            rb 0x15 3 (kcvNum a.key) ||| rb 0x18 1 a.mode)))

/-! ### Retire, query and pins (R276, R277) -/

/-- A live range names a slot (R202). -/
def rangeNames (ch : Chip) (k : Nat) : Bool :=
  ch.ranges.any fun e => match e.2 with | some r => r.o = k || r.n = k | none => false

/-- Checks 1 to 4 of Table 12.9. -/
def slotFail (ch : Chip) (t k kgen : Nat) (active : Bool) : Option Reply :=
  let d := slotDesc ch k
  if !inSlotQuota (tenantCfg ch.cfg t) k then some (failAt 1 stKeyOwner)
  else if dState d = ssEmpty then some (failAt 2 stKeyEmpty)
  else if dKgen d != kgen then some (failAt 3 stKeyStale)
  else if active && dState d != ssActive then some (failAt 4 stKeyRetiring)
  else none

/-- KEYIDX and KGEN echoed. -/
def slotEcho (c : CommandWord) : Nat := rb 0x10 4 (cb c 0x10 4) ||| rb 0x14 1 (cb c 0x14 1)

/-- A refusal of one of these commands, which echoes both too. -/
def failEcho (c : CommandWord) (r : Reply) : Reply := { r with result := slotEcho c }

/-- XN_KEY_RETIRE. -/
def execXnKeyRetire (mb : Fin 1028) (s : State) : Out :=
  onState s fun s => runCommand s mb (isOp 0x0302) [(0x10, 20), (0x14, 8)] fun s c =>
    let k := cb c.cmd 0x10 4
    match slotFail s.chip mb k (cb c.cmd 0x14 1) true with
    | some r => (s, .reply (failEcho c.cmd r))
    | none =>
      if rangeNames s.chip k then (s, .reply (failEcho c.cmd (failAt 5 stBusy)))
      else ({ s with chip := retireSlot s.chip k },
        .reply (okWith (slotEcho c.cmd ||| rb 0x18 4 (inflightOf s.chip k))))

/-- KCV of a slot's key, for ACTIVE and RETIRING slots. -/
def slotKcv (ch : Chip) (k : Nat) : Nat :=
  let d := slotDesc ch k
  if dState d = ssActive || dState d = ssRetiring then kcvNum ((slotKey ch k).take (keyBytesOf (dMode d))) else 0

/-- XN_KEY_QUERY. -/
def execXnKeyQuery (mb : Fin 1028) (s : State) : Out :=
  onState s fun s => runCommand s mb (isOp 0x0303) [(0x10, 20)] fun s c =>
    let ch := s.chip
    let k := cb c.cmd 0x10 4
    if !inSlotQuota (tenantCfg ch.cfg mb) k then (s, .reply (failAt 1 stKeyOwner))
    else (s, .reply (okWith (rb 0x10 32 (slotDesc ch k).toNat ||| rb 0x30 3 (slotKcv ch k) ||| rb 0x34 4 (inflightOf ch k))))

/-- The lowest free entry of the pin store, none when it is full. -/
def freePin (ch : Chip) : Option Nat :=
  let held := ch.keys.pins.map (·.1)
  if 65536 ≤ held.length then none else (List.range (held.length + 1)).find? fun e => !held.contains e

/-- Pin a slot into an entry (R125). -/
def pinSlot (ch : Chip) (t k e : Nat) : Chip :=
  match ch.keys.ck with
  | none => ch
  | some ck =>
    let copy := underCk ck (2 ^ 32 + e) (slotKey ch k)
    let ch := setDesc ch k (setFld (slotDesc ch k) 94 1 1)
    { ch with keys := { ch.keys with pins := Tbl.set none ch.keys.pins e (some (k, copy, (getTenant ch t).epoch)) } }

/-- Pins held and PIN_QUOTA. -/
def pinEcho (ch : Chip) (t : Nat) (c : CommandWord) : Nat :=
  slotEcho c ||| rb 0x18 4 (pinsHeld ch t) ||| rb 0x1C 4 (tenantCfg ch.cfg t).pinQuota

/-- The slot is read for its copy (R116): one that is lost is no longer ACTIVE, and is not pinned. -/
def pinRead (s : State) (mb k e : Nat) (bad : List (Fin 80)) (c : CommandWord) : State × Act :=
  let ch := scrubSlot s.chip k bad
  if dState (slotDesc ch k) != ssActive then ({ s with chip := ch }, .reply (failEcho c (failAt 4 stKeyRetiring)))
  else
    let ch := pinSlot ch mb k e
    ({ s with chip := ch }, .reply (okWith (pinEcho ch mb c)))

/-- XN_KEY_PIN. -/
def execXnKeyPin (mb : Fin 1028) (bad : List (Fin 80)) (s : State) : Out :=
  onState s fun s => runCommand s mb (isOp 0x0304) [(0x10, 20), (0x14, 8)] fun s c =>
    let ch := s.chip
    let k := cb c.cmd 0x10 4
    match slotFail ch mb k (cb c.cmd 0x14 1) true with
    | some r => (s, .reply (failEcho c.cmd r))
    | none =>
      if dPinned (slotDesc ch k) then (s, .reply (okWith (pinEcho ch mb c.cmd)))
      else
        match freePin ch with
        | none => (s, .reply (failEcho c.cmd (failAt 5 stNoResource)))
        | some e =>
          if (tenantCfg ch.cfg mb).pinQuota ≤ pinsHeld ch mb then (s, .reply (failEcho c.cmd (failAt 5 stNoResource)))
          else pinRead s mb k e bad c.cmd

/-- Unpin a slot. -/
def unpinSlot (ch : Chip) (k : Nat) : Chip := dropPin (setDesc ch k (setFld (slotDesc ch k) 94 1 0)) k

/-- XN_KEY_UNPIN. -/
def execXnKeyUnpin (mb : Fin 1028) (s : State) : Out :=
  onState s fun s => runCommand s mb (isOp 0x0305) [(0x10, 20), (0x14, 8)] fun s c =>
    let k := cb c.cmd 0x10 4
    match slotFail s.chip mb k (cb c.cmd 0x14 1) false with
    | some r => (s, .reply (failEcho c.cmd r))
    | none =>
      let ch := if dPinned (slotDesc s.chip k) then unpinSlot s.chip k else s.chip
      ({ s with chip := ch }, .reply (okWith (pinEcho ch mb c.cmd)))

/-! ### KEKs (R278 to R280) -/

/-- The active GTKs, current first: position, epoch and key. -/
def gtkKeys (ch : Chip) : List (Nat × Nat × List Byte) :=
  let one (pos : Nat) (g : Option Gtk) : List (Nat × Nat × List Byte) :=
    match g with
    | some k => ((memKey ch k.record).toList).map fun key => (pos, k.epoch, key)
    | none => []
  one 0 ch.keys.gtkCur ++ one 1 ch.keys.gtkPrev

/-- Checks 1 to 7 of XN_KEK_LOAD. -/
def kekLoadFail (ch : Chip) (t kekslot : Nat) (c : Call) : Option Reply :=
  let idx := 16 * t + kekslot
  if ch.keys.ck.isNone then some (failAt 1 stRngUnseeded)
  else if ch.keys.vk.isNone then some (failAt 2 stDenied)
  else if 15 < kekslot then some (failAt 3 stBadField)
  else if kekReserved ch idx then some (failAt 4 stDualPending)
  else if kekActive ch idx then some (failAt 5 stDenied)
  else if ch.keys.gtkCur.isNone && ch.keys.gtkPrev.isNone then some (failAt 6 stKeyEmpty)
  else if cb c.cmd 0x12 2 != 56 || !blobWords c.blob 56 then some (failAt 7 stBadField)
  else none

/-- The GTK position and epoch under which a blob unwraps, with its plaintext (check 8). -/
def gtkUnwrap (ch : Chip) (blob : List Byte) : Option (Nat × Nat × List Byte) :=
  (gtkKeys ch).findSome? fun g => (kwUnwrap g.2.2 blob).map fun pt => (g.1, g.2.1, pt)

/-- The device knows from here on how the KEK of an index arrives (R110; log entry 24). -/
def noteSource (s : State) (idx source : Nat) : State := { s with kekSource := Tbl.set 0 s.kekSource idx source }

/-- XN_KEK_LOAD: the command waits for its vault record. -/
def execXnKekLoad (mb : Fin 1028) (s : State) : Out :=
  onState s fun s => runCommand s mb (isOp 0x0306) [(0x10, 8), (0x12, 16)] fun s c =>
    let ch := s.chip
    let t := mb.val
    let kekslot := cb c.cmd 0x10 1
    match kekLoadFail ch t kekslot c with
    | some r => (s, .reply r)
    | none =>
      match gtkUnwrap ch (blobBytes c.blob 56) with
      | none => (s, .reply (failAt 8 stAuthFail))
      | some (pos, epoch, pt) =>
        if pt.take 16 != attrBlock t kekslot 0 magicDkk1 then (s, .reply (failAt 9 stBadField))
        else
          match vaultRefusal ch with
          | some r => (s, .reply r)
          | none =>
            let kek := pt.drop 16
            let idx := 16 * t + kekslot
            let result := rb 0x10 1 kekslot ||| rb 0x11 1 pos ||| rb 0x14 4 epoch ||| rb 0x18 3 (kcvNum kek)
            let record := memRecord (ch.keys.ck.getD []) kek
            let ch := vaultWrite ch (keyRecord .command 1 idx (dkkBlob (ch.keys.vk.getD []) t kekslot kek))
            (noteSource { s with chip := ch } idx 2, .wait (.kekLoad idx 2 record result))

/-- RESULT of XN_KEK_QUERY for a KEK. -/
def kekView (ch : Chip) (idx : Nat) : Nat :=
  let k := getKek ch idx
  let code := match kekKey ch idx with | some key => kcvNum key | none => 0
  rb 0x10 1 (bitIf (k.source != 0) 0) ||| rb 0x11 1 k.source |||
    rb 0x12 1 (bitIf (k.source = 2) 0 ||| bitIf (kekReserved ch idx) 1) ||| rb 0x18 3 code

/-- RESULT of XN_KEK_QUERY for a GTK: it comes from shares. -/
def gtkView (ch : Chip) (g : Option Gtk) : Nat :=
  let reserved := sessionOpen ch.keys.session && ch.keys.session.purpose = 2
  rb 0x12 1 (bitIf reserved 1) |||
    match g with
    | none => 0
    | some k =>
      let code := match memKey ch k.record with | some key => kcvNum key | none => 0
      rb 0x10 1 1 ||| rb 0x11 1 1 ||| rb 0x14 4 k.epoch ||| rb 0x18 3 code

/-- XN_KEK_QUERY. -/
def execXnKekQuery (mb : Fin 1028) (s : State) : Out :=
  onState s fun s => runCommand s mb (isOp 0x0307) [(0x10, 8), (0x11, 8), (0x12, 16)] fun s c =>
    let ch := s.chip
    let target := cb c.cmd 0x10 1
    let kekslot := cb c.cmd 0x11 1
    let t := cb c.cmd 0x12 2
    if mb.val < 1024 && (target = 1 || target = 2 || t != mb.val) then (s, .reply (failAt 1 stDenied))
    else if 2 < target || 15 < kekslot || 1023 < t || (target != 0 && (kekslot != 0 || t != 0)) then
      (s, .reply (failAt 2 stBadField))
    else
      (s, .reply (okWith (if target = 0 then kekView ch (16 * t + kekslot)
        else gtkView ch (if target = 1 then ch.keys.gtkCur else ch.keys.gtkPrev))))

/-- XN_KEK_ERASE: the command waits for its vault record. -/
def execXnKekErase (mb : Fin 1028) (s : State) : Out :=
  onState s fun s => runCommand s mb (isOp 0x0308) [(0x10, 8), (0x12, 10)] fun s c =>
    let ch := s.chip
    let kekslot := cb c.cmd 0x10 1
    let t := cb c.cmd 0x12 2
    let idx := 16 * t + kekslot
    if !ownTenant mb t then (s, .reply (failAt 1 stDenied))
    else if 15 < kekslot then (s, .reply (failAt 1 stBadField))
    else if kekReserved ch idx then (s, .reply (failAt 2 stDualPending))
    else if !kekActive ch idx then (s, .reply (failAt 3 stKeyEmpty))
    else
      match vaultRefusal ch with
      | some r => (s, .reply r)
      | none =>
        ({ s with chip := vaultWrite ch (eraseRecord .command 1 idx) },
          .wait (.kekErase idx (rb 0x10 1 kekslot ||| rb 0x12 2 t)))

/-! ### XN_KEY_QUOTA (R281 to R283) -/

/-- The query form. -/
def quotaQuery (c : CommandWord) : Bool := cb c 0x12 1 = 0 && cb c 0x13 93 = 0

/-- Check 1 of XN_KEY_QUOTA, with the bytes that SELECT does not mark. -/
def quotaCheck1 (c : CommandWord) : Bool :=
  let sel := cb c 0x12 1
  let base := cb c 0x18 4
  let size := cb c 0x1C 4
  let lbase := cb c 0x20 2
  let lsize := cb c 0x22 2
  cb c 0x10 2 < 1024 && sel != 0 && sel < 8 && (sel.testBit 0 || (base = 0 && size = 0)) &&
    (sel.testBit 1 || (lbase = 0 && lsize = 0)) && (sel.testBit 2 || cb c 0x24 4 = 0) &&
    base < 2 ^ 20 && base + size ≤ 1048576 && (size != 0 || base = 0) &&
    lbase < 4096 && lbase + lsize ≤ 0xFF8 && (lsize != 0 || lbase = 0) && cb c 0x24 4 ≤ 65536

/-- Two spans of a base and a size overlap. -/
def spansMeet (a n b m : Nat) : Bool := 0 < n && 0 < m && a < b + m && b < a + n

/-- The tenant's entry after XN_KEY_QUOTA. -/
def setQuota (c : CommandWord) (k : TenantCfg) : TenantCfg :=
  let sel := cb c 0x12 1
  let k := if sel.testBit 0 then { k with slotBase := cb c 0x18 4, slotSize := cb c 0x1C 4 } else k
  let k := if sel.testBit 1 then { k with lkeyBase := cb c 0x20 2, lkeySize := cb c 0x22 2 } else k
  if sel.testBit 2 then { k with pinQuota := cb c 0x24 4 } else k

/-- Check 2: an overlap with another tenant's quota of the same kind. -/
def quotaMeets (c : Cfg) (t : Nat) (k : TenantCfg) : Bool :=
  c.tenants.any fun e => e.1 != t &&
    (spansMeet k.slotBase k.slotSize e.2.slotBase e.2.slotSize || spansMeet k.lkeyBase k.lkeySize e.2.lkeyBase e.2.lkeySize)

/-- Check 3: a slot or entry given up is not EMPTY. -/
def givesUpKeys (ch : Chip) (old new : TenantCfg) : Bool :=
  (ch.keys.desc.any fun e => dState e.2 != ssEmpty && inSlotQuota old e.1 && !inSlotQuota new e.1) ||
    ch.keys.ldesc.any fun e => ldState e.2 != ssEmpty &&
      (old.lkeyBase ≤ e.1 && e.1 < old.lkeyBase + old.lkeySize) && !(new.lkeyBase ≤ e.1 && e.1 < new.lkeyBase + new.lkeySize)

/-- The values of a tenant in the command's layout. -/
def quotaView (ch : Chip) (t : Nat) : Nat :=
  let k := tenantCfg ch.cfg t
  rb 0x10 2 t ||| rb 0x18 4 k.slotBase ||| rb 0x1C 4 k.slotSize ||| rb 0x20 2 k.lkeyBase ||| rb 0x22 2 k.lkeySize |||
    rb 0x24 4 k.pinQuota

/-- A configuration after XN_KEY_QUOTA. -/
def cfgQuota (c : CommandWord) (k : Cfg) : Cfg := { k with tenants := Tbl.modify {} k.tenants (cb c 0x10 2) (setQuota c) }

/-- Checks 1 to 3 of XN_KEY_QUOTA. -/
def quotaFail (ch : Chip) (c : CommandWord) : Option Reply :=
  let t := cb c 0x10 2
  let old := tenantCfg ch.cfg t
  let new := setQuota c old
  if !quotaCheck1 c then some (failAt 1 stBadField)
  else if quotaMeets ch.cfg t new then some (failAt 2 stBadField)
  else if givesUpKeys ch old new then some (failAt 3 stDenied)
  else none

/-- The bits that XN_KEY_QUOTA defines. -/
def quotaFields : List (Nat × Nat) := [(0x10, 24), (0x18, 128)]

/-- XN_KEY_QUOTA. -/
def execXnKeyQuota (mb : Fin 1028) (s : State) : Out :=
  onState s fun s => runCommand s mb (isOp 0x0309) quotaFields fun s c =>
    let ch := s.chip
    let t := cb c.cmd 0x10 2
    if !ownTenant mb t || (mb.val < 1024 && cb c.cmd 0x12 1 != 0) then (s, .reply (failAt 1 stDenied))
    else if quotaQuery c.cmd then
      (s, .reply (if 1023 < t then failAt 1 stBadField else okWith (quotaView ch t)))
    else
      match quotaFail ch c.cmd with
      | some r => (s, .reply r)
      | none =>
        if ch.live2 then (s, .reply (failAt 4 stGenBusy))
        else
          let ch := newGeneration ch (cfgQuota c.cmd)
          ({ s with chip := ch }, .reply (okWith (quotaView ch t)))

/-! ### Counters (R284, R285) -/

/-- RESULT of XN_LEASE_QUERY (Table 12.14). -/
def leaseResult (s : State) : Nat :=
  let m := s.chip.damson
  let jgen := s.otp.journalGen
  let cur := match m.current with | some (l, _) => l | none => Config.noLease.toNat
  let nxt := match m.next with | some (l, _) => l | none => 2 ^ 48 - 1
  let flags := bitIf m.blocked 0 ||| bitIf m.exhausted 1 ||| bitIf s.aon.shadowValid 2 ||| bitIf (56 ≤ jgen) 3 |||
    bitIf m.change.isSome 4
  rb 0x10 6 cur ||| rb 0x16 2 (m.slot ||| bitIf m.grouped 15) ||| rb 0x18 6 nxt ||| rb 0x1E 1 jgen ||| rb 0x1F 1 flags |||
    rb 0x20 4 (subLeft m) ||| rb 0x24 4 m.wpos0 ||| rb 0x28 4 m.wpos1

/-- XN_LEASE_QUERY. -/
def execXnLeaseQuery (mb : Fin 1028) (s : State) : Out :=
  onState s fun s => runCommand s mb (isOp 0x0401) [] fun s _ => (s, .reply (okWith (leaseResult s)))

/-- The own checks of XN_LOCAL_SLOT_SET, with the job of R249. -/
def localSlotFail (ch : Chip) (mb v : Nat) : Option Reply :=
  if 4095 < v then some (failAt 1 stBadField)
  else if ch.fw.group != 0 then some (failAt 2 stDenied)
  else if ch.damson.change.isSome then some (failAt 3 stBusy)
  else if ch.damson.exhausted then some (failAt 4 stDenied)
  else if !jobFree ch mb then some { status := stNoResource, detail := 0x7D }
  else none

/-- XN_LOCAL_SLOT_SET: within 5 ms the command answers, and beyond it goes on as a job (R285). -/
def execXnLocalSlotSet (mb : Fin 1028) (s : State) : Out :=
  onState s fun s => runCommand s mb (isOp 0x0402) [(0x10, 16)] fun s c =>
    let v := cb c.cmd 0x10 2
    match localSlotFail s.chip mb v with
    | some r => (s, .reply r)
    | none =>
      if v = s.chip.damson.slot then (s, .reply {})
      else
        let s := { s with chip := setDamson s.chip fun m => { m with localSlot := v } }
        (slotChange s v false, .wait (.slotChange (nowUs s.chip + 5000) false))

end Sys2Proof.Machine
end

