-- ==== Sys2Proof/Machine/Rind.lean ====
section
/-! DEFINITION. The security boundary (17_boundary.md): monitor trips and their latches (R381 to R389), and the random unit with
its sources (R398 to R405), which draws CK (R106), the officers' challenges (R252), the VITAL keys (R184) and the mesh seeds
(R386). -/

namespace Sys2Proof.Machine

/-! ### Monitors (Table 17.1) -/

/-- The kind that a monitor reports. -/
def monitorKind (i : Nat) : Nat :=
  if i < 8 then fkTemp else if i = 8 then fkVolt else if i < 11 then fkPll else if i < 19 then fkMesh else fkTamperIn

/-- Mesh pairs and tamper inputs: the sources that run in the AON domain. -/
def aonMonitor (i : Nat) : Bool := 11 ≤ i

/-- The source is disabled by fuse: the AON copy decides, which takes the OTP value at PWR_OK (R380, R390). -/
def monitorFused (s : State) (i : Nat) : Bool := s.aon.fused.getLsbD i || (s.chip.powered && s.otp.disabled.getLsbD i)

/-- The source is armed (R381): a mesh or tamper source while the always-on supply is present, the others 100 µs after
PWR_OK. -/
def monitorArmed (s : State) (i : Nat) : Bool :=
  if aonMonitor i then s.aon.present else s.chip.powered && 100 ≤ nowUs s.chip

/-- Ticks of the always-on supply among the last three. -/
def sampledTicks (s : State) : Nat := min 3 s.aon.tick

/-- The sampler of a mesh or tamper source with what it has seen in the last three ticks; a failing tick begins the latch period
anew (R388). -/
def seenBy (s : State) (i : Nat) (v : BitVec 6) : Sampler :=
  let x := { Tbl.get {} s.aon.samplers i with seen := v }
  match (failedTicks (i ≤ 18) (sampledTicks s) x).findIdx? id with
  | some n => { x with passed := min n x.passed }
  | none => x

/-- What the comparators and samplers of the AON domain hold after a report. -/
def noteSample (s : State) (i : Nat) (m : MonitorSample) : State :=
  let put (v : BitVec 6) : State :=
    { s with aon := { s.aon with samplers := Tbl.set {} s.aon.samplers i (seenBy s i v) } }
  match m with
  | .mesh v => put v
  | .input v => put (v.setWidth 6)
  | .temp .. => s
  | .volt .. => s
  | .clock .. => s

/-- A temperature reading in 1/16 °C beyond −35 °C or +125 °C. -/
def beyondTemp (r : BitVec 16) : Bool := 2000 < r.toInt || r.toInt < -560

/-- The nominal count of a clock monitor's window: 1,024 × CORE_MUL for the PLL (R383); 64 AON cycles of 4 MHz are 1,600 REFCLK
cycles of 100 MHz (DEDUCED, log entry 141). -/
def nominalCount (s : State) (i : Nat) : Nat := if i = 9 then 1024 * s.chip.coreMul else 1600

/-- A count outside the window of a clock monitor (Table 17.2). -/
def beyondClock (s : State) (i n : Nat) : Bool :=
  if i = 9 then 11 * nominalCount s 9 < 10 * n || 10 * n < 9 * nominalCount s 9 else n < 1000 || 2300 < n

/-- The filter of Table 17.2 is met. Of a core voltage excursion between the columns the report decides (log entry 141). -/
def filterMet (s : State) (i : Nat) : MonitorSample → Bool
  | .temp r before => beyondTemp r && beyondTemp before
  | .volt _ permille ns => 110 < permille && 5 ≤ ns
  | .clock n before => beyondClock s i n.toNat && beyondClock s i before.toNat
  | .mesh v => 2 ≤ ((failedTicks true (sampledTicks s) (seenBy s i v)).filter id).length
  | .input v => 2 ≤ ((failedTicks false (sampledTicks s) (seenBy s i (v.setWidth 6))).filter id).length

/-- READING of a trip (Table 17.6). -/
def monitorReading (s : State) (i : Nat) : MonitorSample → Word64
  | .temp r before => BitVec.ofNat 64 (field 0 16 r.toNat ||| field 16 16 before.toNat ||| field 32 8 i)
  | .volt high _ _ => if high then 2 else 1
  | .clock n _ => BitVec.ofNat 64 (field 0 32 n.toNat ||| field 32 32 (nominalCount s i))
  | .mesh v => BitVec.ofNat 64 (field 0 8 (Tbl.get {} s.aon.samplers i).driven.toNat ||| field 8 8 v.toNat)
  | .input v => BitVec.ofNat 64 v.toNat

/-- Crossings that are no trip while PFAIL_N is asserted (R384): a low-side excursion, and a core PLL count below the window. -/
def plannedDrop (s : State) (i : Nat) (reading : Word64) : Bool :=
  s.chip.pfail && ((i = 8 && fld reading 0 8 = 1) || (i = 9 && fld reading 0 32 < fld reading 32 32))

/-- The source raises no new trip: its latch is set (R388), or it has tripped since PWR_OK. -/
def monitorHeld (s : State) (i : Nat) : Bool :=
  if aonMonitor i then s.aon.tripped.getLsbD i else s.chip.trippedOnce.getLsbD i

/-- The officer key registers are cleared and the officers are UNENROLLED (R108, R251). -/
def clearOfficers (ch : Chip) : Chip :=
  { ch with keys := { ch.keys with offA := { ch.keys.offA with key := [], enrolled := false }
                                   offB := { ch.keys.offB with key := [], enrolled := false } } }

/-- The marks that a trip leaves on its source. -/
def markTrip (s : State) (i : Nat) : State :=
  if aonMonitor i then { s with aon := { s.aon with tripped := s.aon.tripped ||| (1#64 <<< i) } }
  else { s with chip := { s.chip with trippedOnce := s.chip.trippedOnce ||| (1#64 <<< i) } }

/-- A trip of an armed source with main power (R387): zeroize is asserted directly, evidence is taken, and the message is
recorded and acts. -/
def tripPowered (s : State) (i : Nat) (reading : Word64) : State :=
  let src := srcMonitor i
  let kind := monitorKind i
  if aonMonitor i && !s.otp.locked then report s src kind (ctxPlain 0)
  else
    let s := markTrip s i
    let ch := logicalZeroize s.chip
    let ch := if floorSev (0x6D0 + i) = 4 then clearOfficers ch else ch
    let s := { s with chip := ch, aon := { s.aon with zeroize := true } }
    let sev := max (sevOf ch (0x6D0 + i)) (kindFloor kind)
    report (takeEvidence s (evidenceNow s 1 sev src reading 0)) src kind (ctxPlain 0)

/-- A trip without main power: the latch, the kill-pending latch, and the evidence of the trip and of the zeroization that it
causes. -/
def tripUnpowered (s : State) (i : Nat) (reading : Word64) : State :=
  if !s.otp.locked then s
  else
    let src := srcMonitor i
    let s := markTrip s i
    let s := { s with aon := { s.aon with zeroize := true, killPending := true } }
    let s := latchEvidence s { evidenceNow s 1 4 src reading 0 with usec := 0 }
    latchEvidence s { evidenceNow s 2 4 src 0 0 with usec := 0 }

/-- A source reports what it has sampled: one that is not held trips if its filter is met. -/
def monitorReport (s : State) (i : Nat) (m : MonitorSample) : State :=
  let reading := monitorReading s i m
  let met := filterMet s i m
  let s := noteSample s i m
  if monitorHeld s i || !met then s
  else if s.chip.powered then (if plannedDrop s i reading then s else settleRng (tripPowered s i reading))
  else tripUnpowered s i reading

/-- MONITOR_TRIP, due when the filter of Table 17.2 is met on the source's samples. -/
def execMonitorTrip (i : Fin 24) (m : MonitorSample) (s : State) : Out :=
  .next (if monitorFused s i || !monitorArmed s i || !sampleOf i m then s else monitorReport s i m)

/-- A reading in 1/16 °C lies above +110 °C or below −20 °C (R383). -/
def warmReading (r : BitVec 16) : Bool := 1760 < r.toInt || r.toInt < -320

/-- TEMP_WARN, due at a reading beyond the service range, at most once per site per second. -/
def execTempWarn (site : Fin 8) (reading : BitVec 16) (s : State) : Out :=
  onState s fun s =>
    let ch := s.chip
    let recent := match Tbl.get none ch.tempWarned site.val with
      | some t => decide (nowUs ch < t + 1000000)
      | none => false
    if !warmReading reading || recent || monitorFused s site || !monitorArmed s site then s
    else
      let ch := { ch with tempWarned := Tbl.set none ch.tempWarned site.val (some (nowUs ch)) }
      { s with chip := event ch 0x0D01 0 none [(site.val, 3), (reading.toNat, 16)] }

/-- PFAIL_LOW_CROSSING, due while PFAIL_N is asserted: zeroize is asserted, and HALT entered without evidence (R384, R385). -/
def execPfailLowCrossing (s : State) : Out :=
  onState s fun s =>
    if !s.chip.pfail || monitorFused s 8 || !monitorArmed s 8 then s
    else
      let s := { s with aon := { s.aon with zeroize := true } }
      if halted s.chip then { s with chip := logicalZeroize s.chip }
      else
        let s := reactHalt s (srcMonitor 8)
        settleRng { s with chip := { s.chip with faults := { s.chip.faults with quiet := true } } }

/-- TAMPER_LATCH_CLEAR, due when the source has passed in 2^20 consecutive ticks. -/
def execTamperLatchClear (i : Fin 24) (s : State) : Out :=
  .next (
    if !s.aon.present || !s.aon.tripped.getLsbD i || (Tbl.get {} s.aon.samplers i.val).passed < latchTicks then s
    else
      let s := { s with aon := { s.aon with tripped := s.aon.tripped &&& ~~~(1#64 <<< i.val) } }
      if s.chip.powered then { s with chip := event s.chip 0x0D02 0 none [(srcMonitor i, 16)] } else s)

/-! ### VITAL regions (R184) -/

/-- The VITAL settings: region, BASE, LIMIT and MODE; a later one for the same region replaces an earlier one (R439). -/
def vitalsOf (area : List Byte) : List (Nat × Nat × Nat × Nat) :=
  ((tlvsOf area).getD []).foldl (fun (acc : List (Nat × Nat × Nat × Nat)) (t : Nat × Nat × List Byte) =>
    if t.1 = 4 then
      let n := ofLE t.2.2
      let r := bytesAt n 0 2
      acc.filter (fun x => x.1 != r) ++ [(r, bytesAt n 2 5, bytesAt n 7 5, bytesAt n 12 1)]
    else acc) []

/-- A VITAL region entry (Table 8.2): KEEP set, AMASK 0xFFF. -/
def vitalRegion (base limit entry : Nat) : BitVec 256 :=
  BitVec.ofNat 256 (field 216 40 base ||| field 176 40 limit ||| field 118 12 entry ||| field 82 12 0xFFF |||
    field 70 2 2 ||| field 69 1 1)

/-- Write the VITAL regions into a configuration, with entries from 0xFF8 on. -/
def vitalCfg (vs : List (Nat × Nat × Nat × Nat)) (c : Cfg) : Cfg :=
  vs.zipIdx.foldl (fun c (x : (Nat × Nat × Nat × Nat) × Nat) =>
    setRegion c x.1.1 (vitalRegion x.1.2.1 x.1.2.2.1 (0xFF8 + x.2))) c

/-- The VITAL keys are drawn. -/
def drawVitals (ch : Chip) (vs : List (Nat × Nat × Nat × Nat)) : Chip :=
  vs.zipIdx.foldl (fun ch (x : (Nat × Nat × Nat × Nat) × Nat) => drawEntry ch (0xFF8 + x.2) 0 x.1.2.2.2 true true) ch

/-- The VITAL regions are written and their sweeps start: at boot with the settings, later as one generation (R221). -/
def writeVitals (ch : Chip) : Chip :=
  let vs := vitalsOf ch.fw.tlvs
  let ch := if ch.dstate = 0 then { ch with cfg := vitalCfg vs ch.cfg } else newGeneration ch (vitalCfg vs)
  let ch := vs.foldl (fun ch (v : Nat × Nat × Nat × Nat) => setSweep ch v.1 { bound := v.2.1 * 64, state := 1 }) ch
  fillKeep { ch with quince := { ch.quince with vitalsDue := false } }

/-- Draw the VITAL keys, write the regions, and start their sweeps, once CK exists. While two generations are live the writes
wait (R221). -/
def startVitals (ch : Chip) : Chip :=
  let vs := vitalsOf ch.fw.tlvs
  if ch.keys.ck.isNone || vs.isEmpty then ch
  else
    let ch := drawVitals ch vs
    if ch.live2 then { ch with quince := { ch.quince with vitalsDue := true } } else writeVitals ch

/-- GENERATION_DRAIN, due when nothing stamped with the older live generation remains (R223). -/
def execGenerationDrain (s : State) : Out :=
  onChip s fun ch =>
    if !ch.live2 || genUsed ch ch.oldGen then ch
    else
      let ch := { ch with live2 := false }
      if ch.quince.vitalsDue && !halted ch then writeVitals ch else ch

/-! ### The random unit -/

/-- Cutoff of the Repetition Count Test, 1 + ceil(40 / 0.5) (R399). -/
def repetitionCutoff : Nat := 81

/-- Window of the Adaptive Proportion Test, and its cutoff 1 + CRITBINOM(1,024, 2^−0.5, 1 − 2^−40) (R399). -/
def proportionWindow : Nat := 1024
def proportionCutoff : Nat := 824

/-- A source's next sample `b`, through both tests (R399). After a failure they begin anew (DESIGN CHOICE,
log entry 150). A source that has not failed is
healthy once its first 1,024 samples have passed. -/
def sampleSloe (b : Bool) (o : Sloe) : Sloe :=
  let run := if o.run != 0 && b = o.last then o.run + 1 else 1
  let first := if o.place = 0 then b else o.first
  let same := if o.place = 0 then 1 else if b = o.first then o.same + 1 else o.same
  let long := decide (repetitionCutoff ≤ run)
  let biased := decide (proportionCutoff ≤ same)
  let o := { o with samples := o.samples + 1, last := b, first := first }
  if long || biased then
    { o with due := o.due.orElse fun _ => some (!long), run := 0, place := 0, same := 0, passed := 0 }
  else
    let passed := min 4096 (o.passed + 1)
    { o with run := run, place := (o.place + 1) % proportionWindow, same := same, passed := passed
             healthy := o.healthy || (o.fails = 0 && o.due.isNone && proportionWindow ≤ passed) }

/-- One sampling of a source: it pauses while its crossing queue is full (R19), and what a source that is not healthy has
sampled is read and dropped (R399, R400). -/
def sloeStep (ch : Chip) (i : Nat) : Chip :=
  let o := getSloe ch i
  if sloeQueue ≤ unreadOctets o then ch
  else
    let o := sampleSloe ((Config.sloeBits ch.rng.powerOn i (o.samples / 8)).getLsbD (o.samples % 8)) o
    setSloe ch i (if o.healthy then o else { o with used := max o.used (o.samples / 8) })

/-- Each source is sampled once every 8 REFCLK cycles (R398), and the conditioner gathers in the background (R402). -/
def sampleSloes (ch : Chip) : Chip :=
  if ch.cycle % (8 * ch.coreMul) != 0 then ch else gatherOctets ((List.range 8).foldl sloeStep ch)

/-- SLOE_FAIL, due when a test of the source has failed (`test` is the Adaptive Proportion Test). One that is out for good is
not heard. -/
def execSloeFail (src : Fin 8) (test : Bool) (s : State) : Out :=
  onState s fun s =>
    let ch := s.chip
    let o := getSloe ch src
    if o.due != some test || 3 ≤ o.fails then s
    else
      let ch := setSloe ch src (discardOctets { o with healthy := false, fails := o.fails + 1, due := none })
      let ch := { ch with rng := { ch.rng with block := [] } }
      let ch := event ch 0x0D09 0 none [(src.val, 3), (if test then 1 else 0, 1)]
      let ch := if o.fails + 1 = 3 then raise ch (srcSub 6) fkDrbg (ctxPlain 0) else ch
      settleRng { s with chip := if 4 < sloesOut ch then rngFail ch else ch }

/-- SLOE_REJOIN, due when 4,096 further samples have passed; FAILED ends when four sources are healthy again (R400). -/
def execSloeRejoin (src : Fin 8) (s : State) : Out :=
  onChip s fun ch =>
    let o := getSloe ch src
    if o.healthy || o.fails = 0 || 3 ≤ o.fails || o.due.isSome || o.passed < 4096 then ch
    else rngRecover (setSloe ch src { o with healthy := true })

/-- The DRBG takes new entropy input: instantiation starts from Key and V of zeros (R402). -/
def drbgSeed (ch : Chip) (key v personal : List Byte) : Chip :=
  let e := entropyInput ch
  let u := drbgUpdate key v (xorBytes e.1 personal)
  { e.2 with rng := { e.2.rng with key := u.1, v := u.2, calls := 0, reseedAt := nowUs ch } }

/-- DRBG_RESEED, due after 2^16 generate calls or one second, once three fresh blocks are gathered (R402). -/
def execDrbgReseed (s : State) : Out :=
  onChip s fun ch =>
    let r := ch.rng
    if !r.seeded || (r.calls < 65536 && nowUs ch < r.reseedAt + 1000000) || !entropyReady ch then ch
    else drbgSeed ch r.key r.v (zeros 48)

/-- The personalization string (R402). -/
def personalization (ch : Chip) : List Byte := deviceIdBytes ++ toLE 2 ch.boots ++ zeros 30

/-- The key loader unwraps one custody key of the vault, and Quince memory takes it under CK (R113). -/
def loadCustody (ck : List Byte) (ch : Chip) (w : Nat × Nat × Nat × List Byte) : Chip :=
  let (type, idx, source, blob) := w
  let plain := ((custodyWrap ch type).bind fun k => kwUnwrap k blob).getD []
  let key := (plain.drop 16).take 32
  let epoch := ofLE ((plain.drop 8).take 4)
  if type = 1 then setKek ch idx { source := source, record := memRecord ck key }
  else if idx = 0 then { ch with keys := { ch.keys with gtkCur := some { epoch := epoch, record := memRecord ck key } } }
  else { ch with keys := { ch.keys with gtkPrev := some { epoch := epoch, record := memRecord ck key } } }

/-- Draw CK (R106), unless a reaction is in force; the custody keys that waited for it are loaded. -/
def drawCk (ch : Chip) : Chip :=
  if ch.keys.ck.isSome || halted ch || !ch.rng.seeded then ch
  else
    let d := drawBytes ch 64
    let ch := { d.2 with keys := { d.2.keys with ck := some d.1 } }
    let ch := ch.keys.awaitCk.foldl (loadCustody d.1) ch
    { ch with keys := { ch.keys with awaitCk := [] } }

/-- A fresh NONCE for an officer, with COUNT zero (R252). -/
def drawNonce (ch : Chip) (o : Nat) : Chip :=
  let d := drawBytes ch 12
  setOfficer d.2 o { getOfficer d.2 o with nonce := BitVec.ofNat 96 (ofLE d.1), count := 0 }

/-- Rind's eight mesh seeds (R386): 31 bits of each 4-byte word of one draw; zero becomes 1. -/
def drawMesh (s : State) : State :=
  let d := drawBytes s.chip 32
  let seeds := (List.range 8).map fun k =>
    let v := ofLE ((d.1.drop (4 * k)).take 4) % 2 ^ 31
    BitVec.ofNat 31 (if v = 0 then 1 else v)
  let s := { s with chip := d.2 }
  let mesh := seeds.zipIdx.foldl (fun m x => Tbl.set (meshInit x.2) m x.2 x.1) s.aon.mesh
  if s.aon.present then { s with aon := { s.aon with mesh := mesh } } else s

/-- What the first seeding after PWR_OK serves, in the order of R404. -/
def firstSeeding (s : State) : State :=
  if s.chip.rng.meshSeeded then s
  else
    let ch := drawNonce (drawNonce s.chip 0) 1
    drawMesh { s with chip := { ch with rng := { ch.rng with meshSeeded := true } } }

/-- SEEDING_DONE (R403), due once the unit is not FAILED, four sources or more are healthy, three blocks are gathered and the
known-answer test has passed: the DRBG is instantiated and the waiting consumers are served. -/
def execSeedingDone (s : State) : Out :=
  onState s fun s =>
    let ch := s.chip
    if ch.rng.seeded || ch.rng.failed || !ch.rng.katOk || !entropyReady ch then s
    else
      let ch := drbgSeed ch (zeros 32) (zeros 16) (personalization ch)
      let ch := { ch with rng := { ch.rng with seeded := true } }
      let fresh := ch.keys.ck.isNone
      let ch := drawCk ch
      let ch := if fresh && ch.dstate = 1 then startVitals ch else ch
      let s := firstSeeding { s with chip := ch }
      match s.chip.ctl.stall with
      | some (.rng _) => endStall s fun s => { s with chip := readRng s.chip }
      | _ => s

end Sys2Proof.Machine
end

