-- ==== Sys2Proof/Machine/Settings.lean ====
section
/-! DEFINITION. Firmware images (R433, R434) and settings (R437 to R439), 19_persistence.md: how a copy in flash is checked,
and what each TLV of a settings block sets. -/

namespace Sys2Proof.Machine

/-- Contents of the devices in service, device 0 first (R426). -/
def serviceFlash (s : State) : List (Tbl FlitData) :=
  (if s.chip.xspi0.inService then [s.flash0] else []) ++ (if s.chip.xspi1.inService then [s.flash1] else [])

/-- The copy that a load leaves in SRAM, with the outcome of its check: of the first device whose copy passes, else of the last
device tried (R426, R442). -/
def firstPass {γ α : Type} (none : γ) (copy : Tbl FlitData → γ) (check : γ → Except Nat α) (fs : List (Tbl FlitData)) :
    γ × Except Nat α :=
  fs.foldl (fun r f => match r.2 with | .ok _ => r | .error _ => let c := copy f; (c, check c)) (none, .error 0x90)

/-! ### Quince memory (R435, R440) -/

def getBank (fw : Fw) (b : Nat) : QuinceBank := if b = 0 then fw.bank0 else fw.bank1
def setBank (fw : Fw) (b : Nat) (v : QuinceBank) : Fw := if b = 0 then { fw with bank0 := v } else { fw with bank1 := v }

/-- Entries that hold a run of bytes, from entry `i` on; the last is filled up with zeros (R440). -/
def bankEntries : Nat → Nat → List Byte → Tbl (Option (BitVec 512))
  | 0, _, _ => []
  | n + 1, i, bytes => (i, some (BitVec.ofNat 512 (ofLE (bytes.take 64)))) :: bankEntries n (i + 1) (bytes.drop 64)

/-- One entry of firmware data is written, at most 64 bytes from its first: nothing lands in the locked body, in a bank that is
unwritable, or past firmware data (R435, R440, R447). -/
def bankPut (b : QuinceBank) (i : Nat) (bytes : List Byte) : QuinceBank :=
  if b.closed || 64 * i < b.lock || 0x3C0000 ≤ 64 * i then b
  else
    let old := bvBytes 64 ((Tbl.get none b.mem i).getD 0)
    { b with mem := Tbl.set none b.mem i (some (BitVec.ofNat 512 (ofLE (bytes ++ old.drop bytes.length)))) }

/-- Consecutive entries from entry `i` on. -/
def bankWrite : Nat → QuinceBank → Nat → List Byte → QuinceBank
  | 0, b, _, _ => b
  | n + 1, b, i, bytes => bankWrite n (bankPut b i (bytes.take 64)) (i + 1) (bytes.drop 64)

/-! ### Images -/

/-- The copy of an image in SRAM. -/
structure ImageCopy where
  header : List Byte
  body : List Byte
  trailer : List Byte
deriving DecidableEq, Repr

/-- First byte of an image slot (Table 19.2). -/
def imageBase (slot : Nat) : Nat := 0x01000000 * (1 + slot)

/-- The header, the body and the trailer of a slot are copied from a device (R435); of a BODYLEN above 3 MiB, the header alone. -/
def imageCopy (slot : Nat) (f : Tbl FlitData) : ImageCopy :=
  let hdr := flashRead f (imageBase slot) 256
  let body := bytesAt (ofLE hdr) 0x0C 4
  if 0x300000 < body then ⟨hdr, [], []⟩
  else ⟨hdr, flashRead f (imageBase slot + 256) body, flashRead f (imageBase slot + 256 + body) 4864⟩

/-- The check of R434 on a copy; `len` is the LENGTH of a staged image. -/
def imageCheck (svnCount : Nat) (len : Option Nat) (c : ImageCopy) : Except Nat Img :=
  let hdr := c.header
  let n := ofLE hdr
  let body := bytesAt n 0x0C 4
  let lenOk := match len with | some l => decide (l = 5120 + body) | none => true
  if !(hdr.take 4 = [0x44, 0x49, 0x4D, 0x47] && bytesAt n 4 1 = 1 && bytesAt n 6 2 = 0x204 && body % 256 = 0 &&
      body ≤ 0x300000 && bytesAt n 0x10 4 < body && lenOk) then .error 0x90
  else if sha384 c.body != (hdr.drop 0x18).take 48 then .error 0x90
  else if !Config.ecdsaP384Verify Config.birminEcdsaKey hdr (c.trailer.take 96) then .error 0x91
  else if !Config.mldsa87Verify Config.birminMldsaKey hdr ((c.trailer.drop 96).take 4627) then .error 0x92
  else if bytesAt n 5 1 < svnCount then .error 0x93
  else .ok { st := .verified, release := bytesAt n 8 4, svn := bytesAt n 5 1, hbOut := bytesAt n 0x14 2, hbMin := bytesAt n 0x16 2 }

/-- A slot is copied and checked over the devices in service. -/
def loadSlot (s : State) (slot : Nat) (len : Option Nat) : ImageCopy × Except Nat Img :=
  firstPass ⟨[], [], []⟩ (imageCopy slot) (imageCheck s.otp.svn len) (serviceFlash s)
def checkSlot (s : State) (slot : Nat) (len : Option Nat) : Except Nat Img := (loadSlot s slot len).2

/-- A bank cleared (R440) and loaded with a copy: the body from byte 0, the header and the trailer after it (DESIGN CHOICE, log
entry 167). A copy that passes is locked (R435). -/
def loadedBank (r : ImageCopy × Except Nat Img) : QuinceBank :=
  let bytes := r.1.body ++ r.1.header ++ r.1.trailer
  { mem := bankEntries (bytes.length / 64) 0 bytes
    lock := match r.2 with | .ok _ => r.1.body.length | .error _ => 0 }

/-- A slot is loaded into a bank. -/
def loadBank (s : State) (b slot : Nat) (len : Option Nat) : State :=
  { s with chip := { s.chip with fw := setBank s.chip.fw b (loadedBank (loadSlot s slot len)) } }

/-! ### TLVs (Table 19.8) -/

/-- A command that carries a value from byte `off` on, as a TLV mirrors it. -/
def tlvCommand (off len v : Nat) : CommandWord := BitVec.ofNat 1024 (putAt off len v)

/-- PORTS: every port of the bitmaps whose enable R266 permits. -/
def applyPorts (ch : Chip) (stream lines : Nat) : Chip :=
  let one (kind : Nat) (ch : Chip) (p : Nat) : Chip := if (portCtlFail ch kind p 1).isNone then portAct ch kind p 1 else ch
  let ch := (maskPositions 64 stream).foldl (one 0) ch
  (maskPositions 32 lines).foldl (one 1) ch

/-- TENANT: the parts that SELECT marks, and whether the tenant is enabled. -/
def applyTenant (ch : Chip) (n : Nat) : Option Chip :=
  let c : CommandWord := BitVec.ofNat 1024 (putAt 0x10 2 (bytesAt n 0 2) ||| putAt 0x12 71 (bytesAt n 4 71))
  let en := bytesAt n 2 1
  if 1 < en || bytesAt n 3 1 != 0 || !paramsOk c setFields || !setCheck1 c || !setCheck2 c then none
  else
    let ch := modTenant ch (bytesAt n 0 2) fun tn => { setTenantAuth c tn with st := if en = 1 then .enabled else .disabled }
    some { ch with cfg := cfgTenantSet c ch.cfg }

/-- KEY_QUOTA. -/
def applyQuota (ch : Chip) (n : Nat) : Option Chip :=
  let c := tlvCommand 0x10 24 n
  if !paramsOk c quotaFields || (quotaFail ch c).isSome then none else some { ch with cfg := cfgQuota c ch.cfg }

/-- PROFILE. -/
def applyProfile (ch : Chip) (n : Nat) : Option Chip :=
  let c := tlvCommand 0x10 3 n
  if !profileRangeOk true c then none else some { ch with cfg := cfgProfile true c ch.cfg }

/-- SEVERITY. -/
def applySeverity (s : State) (n : Nat) : Option Chip :=
  let c := tlvCommand 0x10 3 n
  match severityCheck s c with
  | .ok ix => some (setSeverity s.chip ix (cb c 0x12 1))
  | .error _ => none

/-- FAULT_CTL. -/
def applyFaultTlv (ch : Chip) (n : Nat) : Option Chip :=
  let c := tlvCommand 0x10 6 n
  if !paramsOk c faultCtlFields || !faultCtlOk c then none else some (applyFaultCtl ch c)

/-- REGISTER: an RW register of the global page or of a port block. -/
def applyRegister (ch : Chip) (off : Nat) (v : Word64) : Option Chip :=
  if stagedOff off then (if stagedOk off v then some { ch with cfg := setCfgReg ch.cfg off (stagedMask off v) } else none)
  else if off ∈ [0x098, 0x0A0, 0x0A8] || (0x400 ≤ off && off < 0xC00 && off % 0x20 = 0) then writeGlobal ch off v
  else none

/-- One TLV: TYPE, LENGTH and the padded value. None where it fails verification (R438). VITAL and ROTATE take effect
elsewhere. -/
def applyTlv (s : State) (t : Nat × Nat × List Byte) : Option State :=
  let len := t.2.1
  let n := ofLE (t.2.2.take len)
  let on (o : Option Chip) : Option State := o.map fun ch => { s with chip := ch }
  if (t.2.2.drop len).any (· != 0) then none
  else if t.1 = 1 then
    if len = 2 && n < 4096 then on (some { s.chip with damson := { s.chip.damson with localSlot := n } }) else none
  else if t.1 = 2 then
    if len = 1 && 1 ≤ n && n ≤ 60 then on (some { s.chip with fw := { s.chip.fw with dualWindow := n } }) else none
  else if t.1 = 3 then if len = 12 then on (some (applyPorts s.chip (bytesAt n 0 8) (bytesAt n 8 4))) else none
  else if t.1 = 4 then if len = 16 then some s else none
  else if t.1 = 5 then if len = 75 then on (applyTenant s.chip n) else none
  else if t.1 = 6 then if len = 24 then on (applyQuota s.chip n) else none
  else if t.1 = 7 then if len = 3 then on (applyProfile s.chip n) else none
  else if t.1 = 8 then if len = 3 then on (applySeverity s n) else none
  else if t.1 = 9 then if len = 6 then on (applyFaultTlv s.chip n) else none
  else if t.1 = 10 then
    if len = 12 then on (applyRegister s.chip (bytesAt n 0 4) (BitVec.ofNat 64 (bytesAt n 4 8))) else none
  else if t.1 = 15 then if len = 48 then some s else none
  else none

/-- The VITAL settings are well formed: MODE 1 or 2, zero bytes zero, at most 8, and no two regions overlap (Table 19.8,
R178). -/
def vitalsOk (area : List Byte) : Bool :=
  let ts := ((tlvsOf area).getD []).filter fun (t : Nat × Nat × List Byte) => t.1 = 4
  let vs := vitalsOf area
  ts.length ≤ 8 &&
    (ts.all fun (t : Nat × Nat × List Byte) =>
      let n := ofLE t.2.2
      bytesAt n 0 2 < 4096 && bytesAt n 2 5 ≤ bytesAt n 7 5 && 1 ≤ bytesAt n 12 1 && bytesAt n 12 1 ≤ 2 && bytesAt n 13 3 = 0) &&
    vs.all fun (a : Nat × Nat × Nat × Nat) =>
      vs.all fun (b : Nat × Nat × Nat × Nat) => a.1 = b.1 || a.2.2.1 < b.2.1 || b.2.2.1 < a.2.1

/-- The successor root that a settings area names (R438). -/
def rotateOf (area : List Byte) : Option (List Byte) :=
  ((((tlvsOf area).getD []).filter fun (t : Nat × Nat × List Byte) => t.1 = 15).getLast?).map (·.2.2)

/-- Every TLV is well formed and passes the checks of the command it mirrors, over a device at its reset values (R438). -/
def tlvsVerify (otp : Otp) (area : List Byte) : Bool :=
  match tlvsOf area with
  | none => false
  | some ts =>
    let fresh : State := { otp := otp }
    vitalsOk area && ((rotateOf area).isNone || max 1 otp.roots.length < 4) && (ts.foldlM applyTlv fresh).isSome

/-- Apply the TLVs of an area in order; one that cannot take effect on this device at this time is passed over. -/
def applyTlvs (s : State) (area : List Byte) : State :=
  ((tlvsOf area).getD []).foldl (fun s t => (applyTlv s t).getD s) s

/-! ### Settings blocks (Table 19.7) -/

/-- What a verified block holds. -/
structure SettingsBlock where
  seq : Nat
  keys : List Byte
  tlvs : List Byte
deriving DecidableEq, Repr

def settingsBase (copy : Nat) : Nat := 0x00100000 * (1 + copy)

/-- A settings block of at most `limit` bytes is copied from a device (R435); of a greater TLVLEN, the header alone. -/
def settingsCopy (copy limit : Nat) (f : Tbl FlitData) : List Byte :=
  let base := settingsBase copy
  let hdr := flashRead f base 64
  let len := 0xB00 + bytesAt (ofLE hdr) 0x0C 4 + 4864
  if limit < len then hdr else flashRead f base len

/-- The check of R438 on a copy; `limit` is the LENGTH of a staged block, `above` the sequence it must exceed. -/
def settingsCheck (otp : Otp) (limit : Nat) (above : Option Nat) (block : List Byte) : Except Nat SettingsBlock :=
  let hdr := block.take 64
  let n := ofLE hdr
  let tlvLen := bytesAt n 0x0C 4
  let keys := (block.drop 0x40).take 2752
  let tlvs := (block.drop 0xB00).take tlvLen
  let rootOk := match otp.roots.getLast? with | some r => decide (sha384 keys = r) | none => true
  let devOk := bytesAt n 0x10 16 = 0 || (hdr.drop 0x10).take 16 = deviceIdBytes
  if !(hdr.take 4 = [0x44, 0x53, 0x45, 0x54] && bytesAt n 4 1 = 1 && bytesAt n 5 3 = 0 && bytesAt n 0x20 32 = 0 &&
      tlvLen % 256 = 0 && 0xB00 + tlvLen + 4864 ≤ limit && rootOk && devOk && tlvsVerify otp tlvs) then .error 0x90
  else
    let msg := block.take (0xB00 + tlvLen)
    let sig := block.drop (0xB00 + tlvLen)
    if !Config.ecdsaP384Verify (keys.take 97) msg (sig.take 96) then .error 0x91
    else if !Config.mldsa87Verify ((keys.drop 97).take 2592) msg ((sig.drop 96).take 4627) then .error 0x92
    else if (match above with | some q => decide (bytesAt n 8 4 ≤ q) | none => false) then .error 0x93
    else .ok { seq := bytesAt n 8 4, keys := keys, tlvs := tlvs }

/-- A settings copy is copied and checked over the devices in service. -/
def readCopy (s : State) (copy limit : Nat) (above : Option Nat) : List Byte × Except Nat SettingsBlock :=
  firstPass [] (settingsCopy copy limit) (settingsCheck s.otp limit above) (serviceFlash s)
def checkCopy (s : State) (copy limit : Nat) (above : Option Nat) : Except Nat SettingsBlock := (readCopy s copy limit above).2

/-- The copy lies in the firmware data of the bank that Quince executes from, right after the body (R435; DESIGN CHOICE, log entry
167). -/
def loadCopy (s : State) (copy limit : Nat) (above : Option Nat) : State :=
  let bytes := (readCopy s copy limit above).1
  let b := getBank s.chip.fw s.chip.fw.bank
  let b := bankWrite ((bytes.length + 63) / 64) b (b.lock / 64) bytes
  { s with chip := { s.chip with fw := setBank s.chip.fw s.chip.fw.bank b } }

/-! ### What is known of a slot or copy (R325) -/

/-- A span of a device is blank. -/
def spanBlank (f : Tbl FlitData) (lo hi : Nat) : Bool := !f.any fun e => lo ≤ 256 * e.1 && 256 * e.1 < hi

/-- The state of an image slot that is not running, after READY (R442). -/
def slotState (s : State) (slot : Nat) : Img :=
  match checkSlot s slot none with
  | .ok i => i
  | .error _ =>
    let blank := (serviceFlash s).all fun f => spanBlank f (imageBase slot) (imageBase slot + 0x01000000)
    { st := if blank then .empty else .invalid }

/-- The state of a settings copy that is not in force, after READY (R442). -/
def copyState (s : State) (copy : Nat) : Img :=
  match checkCopy s copy 0x100000 none with
  | .ok b => { st := .verified, release := b.seq }
  | .error _ =>
    let blank := (serviceFlash s).all fun f => spanBlank f (settingsBase copy) (settingsBase copy + 0x100000)
    { st := if blank then .empty else .invalid }

end Sys2Proof.Machine
end

