-- ==== Sys2Proof/Machine/FirmwareCmds.lean ====
section
/-! DEFINITION. Firmware, settings and staging, group 0x0B (13_commands_data.md, R319 to R325; R433 to R438 of
19_persistence.md). -/

namespace Sys2Proof.Machine

/-! ### Targets -/

def imgOf (fw : Fw) (target which : Nat) : Img :=
  if target = 1 then (if which = 0 then fw.imgA else fw.imgB) else (if which = 0 then fw.set0 else fw.set1)

/-- The slot that TARGET names: the image slot that is not running, or the settings copy that is not in force. -/
def targetOf (fw : Fw) (target : Nat) : Nat :=
  if target = 1 then 1 - fw.running else (match fw.setInUse with | some c => 1 - c | none => 0)

/-- First byte and size of a target region (Table 19.2). -/
def targetBase (target which : Nat) : Nat := if target = 1 then imageBase which else settingsBase which
def targetSize (target : Nat) : Nat := if target = 1 then 0x01000000 else 0x00100000

/-- The boot slot reverts to the running slot, with its boot record (R320, R324, R430). -/
def revertBoot (ch : Chip) : Chip :=
  if ch.fw.bootSlot = ch.fw.running then ch
  else writeBoot { ch with fw := { ch.fw with bootSlot := ch.fw.running } }

/-- The staging session belongs to a mailbox (R319). -/
def ownsStage (ch : Chip) (mb : Nat) : Bool := match ch.fw.stage with | some g => g.mb = mb | none => false

/-- R249 and R263, in the order that R249 gives. -/
def stageJobRefusal (ch : Chip) (mb : Nat) : Option Reply :=
  if !jobFree ch mb then some { status := stNoResource, detail := 0x7D } else flashRefusal ch

/-- A command starts a job of the staging session: its operations are requested of both devices. -/
def startStageJob (s : State) (mb opcode lo hi : Nat) (ops : List FlashOp) : State × Act :=
  let job := startJob s.chip mb opcode
  let j : StageJob := { handle := job.1, writing := opcode = 0x0B03, lo := lo, hi := hi }
  let ch := job.2
  let ch := { ch with fw := { ch.fw with stage := ch.fw.stage.map fun g => { g with jobs := g.jobs ++ [j] } } }
  ({ s with chip := ops.foldl xsPushAll ch }, .reply { status := stInProgress, job := job.1.toNat })

/-! ### XN_STAGE_OPEN (R320) -/

/-- Checks 1 to 3. -/
def stageOpenFail (ch : Chip) (mb : Nat) (c : CommandWord) : Option Reply :=
  let t := cb c 0x10 1
  let len := cb c 0x14 4
  if !(t = 1 || t = 2) || len = 0 || len % 256 != 0 || targetSize t < len then some (failAt 1 stBadField)
  else if ch.fw.stage.isSome || ch.fw.activate.isSome then some (failAt 2 stBusy)
  else stageJobRefusal ch mb

/-- The session opens and its target is STAGING. -/
def openStage (ch : Chip) (mb target len : Nat) : Chip :=
  let which := targetOf ch.fw target
  let wasBoot := target = 1 && ch.fw.bootSlot = which
  let g : Stage := { mb := mb, target := target, which := which, length := len, spans := [], jobs := [] }
  let fw := modImgOf { ch.fw with stage := some g } target which fun _ => { st := .staging }
  let ch := { ch with fw := fw }
  if wasBoot then revertBoot ch else ch

/-- XN_STAGE_OPEN. -/
def execXnStageOpen (mb : Fin 1028) (s : State) : Out :=
  onState s fun s => runCommand s mb (isOp 0x0B02) [(0x10, 8), (0x14, 32)] fun s c =>
    match stageOpenFail s.chip mb c.cmd with
    | some r => (s, .reply r)
    | none =>
      let t := cb c.cmd 0x10 1
      let lo := targetBase t (targetOf s.chip.fw t)
      let ops := (List.range (targetSize t / 0x10000)).map fun i : Nat =>
        ({ owner := .quince, tag := .stageErase, addr := lo + 0x10000 * i, bytes := none } : FlashOp)
      startStageJob { s with chip := openStage s.chip mb t (cb c.cmd 0x14 4) } mb 0x0B02 lo (lo + targetSize t) ops

/-! ### XN_STAGE_WRITE (R321) -/

/-- Checks 1 to 3. -/
def stageWriteFail (ch : Chip) (mb : Nat) (c : CommandWord) : Option Reply :=
  let off := cb c 0x10 8
  let n := cb c 0x18 4
  match ch.fw.stage with
  | none => some (failAt 1 stDenied)
  | some g =>
    if g.mb != mb then some (failAt 1 stDenied)
    else if off % 256 != 0 || n % 256 != 0 || n < 256 || 0x100000 < n || g.length < off + n ||
        (g.spans.any fun p : Nat × Nat => spansMeet p.1 p.2 off n) then some (failAt 2 stBadField)
    else stageJobRefusal ch mb

/-- A page of the staging window: its byte 8i + k is byte k of word i (R341). -/
def windowPage (ch : Chip) (i : Nat) : List Byte :=
  (List.range 32).flatMap fun k => bvBytes 8 (Tbl.get (0#64) ch.fw.window (32 * i + k))

/-- XN_STAGE_WRITE. -/
def execXnStageWrite (mb : Fin 1028) (s : State) : Out :=
  onState s fun s => runCommand s mb (isOp 0x0B03) [(0x10, 96)] fun s c =>
    match stageWriteFail s.chip mb c.cmd with
    | some r => (s, .reply r)
    | none =>
      let off := cb c.cmd 0x10 8
      let n := cb c.cmd 0x18 4
      let base := match s.chip.fw.stage with | some g => targetBase g.target g.which | none => 0
      let ops := (List.range (n / 256)).map fun i : Nat =>
        ({ owner := .quince, tag := .stagePage, addr := base + off + 256 * i, bytes := some (windowPage s.chip i) } : FlashOp)
      let fw := { s.chip.fw with stage := s.chip.fw.stage.map fun g => { g with spans := g.spans ++ [(off, n)] } }
      startStageJob { s with chip := { s.chip with fw := fw } } mb 0x0B03 (base + off) (base + off + n) ops

/-! ### XN_STAGE_CLOSE (R322) -/

/-- Bytes written in a session. -/
def stagedBytes (g : Stage) : Nat := g.spans.foldl (fun n (p : Nat × Nat) => n + p.2) 0

/-- SEQ of the settings in force. -/
def seqInForce (fw : Fw) : Option Nat := fw.setInUse.map fun c => if c = 0 then fw.set0.release else fw.set1.release

/-- What VERIFY finds: the target's entry, or the DETAIL. -/
def stageVerdict (s : State) (g : Stage) : Except Nat Img :=
  if g.target = 1 then checkSlot s g.which (some g.length)
  else (checkCopy s g.which g.length (seqInForce s.chip.fw)).map fun b => { st := .verified, release := b.seq }

/-- What VERIFY copies: an image into the idle bank, a settings block into firmware data (R435; DESIGN CHOICE, log entry 167). -/
def stageLoad (s : State) (g : Stage) : State :=
  if g.target = 1 then loadBank s (1 - s.chip.fw.bank) g.which (some g.length) else loadCopy s g.which g.length (seqInForce s.chip.fw)

/-- The session ends with its target's entry; the window is cleared (R341). -/
def closeStage (ch : Chip) (g : Stage) (i : Img) : Chip :=
  { ch with fw := modImgOf { ch.fw with stage := none, window := [] } g.target g.which fun _ => i }

/-- XN_STAGE_CLOSE. It needs a free job handle (R249), which it releases, for it ends within its bound (DESIGN CHOICE, log
entry 139). -/
def execXnStageClose (mb : Fin 1028) (s : State) : Out :=
  onState s fun s => runCommand s mb (isOp 0x0B04) [(0x10, 8)] fun s c =>
    let a := cb c.cmd 0x10 1
    if !(a = 1 || a = 2) then (s, .reply (failAt 1 stBadField))
    else
      match s.chip.fw.stage with
      | none => (s, .reply (failAt 2 stDenied))
      | some g =>
        if g.mb != mb then (s, .reply (failAt 2 stDenied))
        else if a = 2 then
          (if jobFree s.chip mb then ({ s with chip := endStage s.chip }, .reply {})
          else (s, .reply { status := stNoResource, detail := 0x7D }))
        else if stagedBytes g != g.length || !g.jobs.isEmpty then (s, .reply (failAt 3 stBadField))
        else if !jobFree s.chip mb then (s, .reply { status := stNoResource, detail := 0x7D })
        else
          let ch := (stageLoad s g).chip
          match stageVerdict s g with
          | .ok i => ({ s with chip := closeStage ch g i }, .reply {})
          | .error d => ({ s with chip := closeStage ch g { st := .invalid } }, .reply { status := stAuthFail, detail := d })

/-! ### XN_FW_ACTIVATE (R323) -/

/-- Checks 1 to 3, with the job that NOW reserves (R249). -/
def activateFail (ch : Chip) (mb : Nat) (c : CommandWord) : Option Reply :=
  let t := cb c 0x10 1
  let w := cb c 0x11 1
  if !((t = 1 && (w = 1 || w = 2)) || (t = 2 && w = 1)) then some (failAt 1 stBadField)
  else if (imgOf ch.fw t (targetOf ch.fw t)).st != .verified then some (failAt 2 stDenied)
  else if ch.fw.stage.isSome || sessionOpen ch.keys.session || ch.fw.activate.isSome then some (failAt 3 stBusy)
  else if !jobFree ch mb then some { status := stNoResource, detail := 0x7D }
  else none

/-- NEXT_BOOT: the target is the boot slot or the boot copy (R430). -/
def activateNext (ch : Chip) (target : Nat) : Chip :=
  let which := targetOf ch.fw target
  let same := if target = 1 then ch.fw.bootSlot = which else ch.fw.setCopy = which
  let fw := if target = 1 then { ch.fw with bootSlot := which } else { ch.fw with setCopy := which }
  if same then ch else writeBoot { ch with fw := fw }

/-- XN_FW_ACTIVATE. -/
def execXnFwActivate (mb : Fin 1028) (s : State) : Out :=
  onState s fun s => runCommand s mb (isOp 0x0B05) [(0x10, 16)] fun s c =>
    match activateFail s.chip mb c.cmd with
    | some r => (s, .reply r)
    | none =>
      let t := cb c.cmd 0x10 1
      if cb c.cmd 0x11 1 = 1 then ({ s with chip := activateNext s.chip t }, .reply {})
      else
        let job := startJob s.chip mb 0x0B05
        let fw := { job.2.fw with activate := some (job.1, targetOf s.chip.fw 1) }
        ({ s with chip := { job.2 with fw := fw } }, .reply { status := stInProgress, job := job.1.toNat })

/-! ### XN_SVN_COMMIT (R324) -/

/-- CONFIRM: "DOLHA-SV". -/
def svnConfirm : Nat := ofLE [0x44, 0x4F, 0x4C, 0x48, 0x41, 0x2D, 0x53, 0x56]

/-- Images whose SVN is now below the count are INVALID, and a boot slot so made INVALID reverts. -/
def dropOldImages (ch : Chip) (svn : Nat) : Chip :=
  let old (i : Img) : Img := if i.svn < svn && i.st = .verified then { i with st := .invalid } else i
  let ch := { ch with fw := { ch.fw with imgA := old ch.fw.imgA, imgB := old ch.fw.imgB } }
  if (imgOf ch.fw 1 ch.fw.bootSlot).st = .invalid then revertBoot ch else ch

/-- XN_SVN_COMMIT: `ok` is whether every step reads back. Of the steps of a failed commit a free number stays (log entry
7). -/
def execXnSvnCommit (mb : Fin 1028) (ok : Bool) (s : State) : Out :=
  onState s fun s => runCommand s mb (isOp 0x0B06) [(0x10, 8), (0x18, 64)] fun s c =>
    let n := cb c.cmd 0x10 1
    let old := s.otp.svn
    if n ≤ old || (runningImg s.chip).svn < n || 64 < n then (s, .reply (failAt 1 stBadField))
    else if cb c.cmd 0x18 8 != svnConfirm then (s, .reply (failAt 2 stBadField))
    else if ok then
      let ch := event (dropOldImages s.chip n) 0x0009 0 none [(n, 8)]
      ({ s with otp := { s.otp with svn := n }, chip := ch }, .reply {})
    else
      let part := old + (Config.freeWord s.chip.free).toNat % (n - old)
      let ch := dropOldImages { s.chip with free := s.chip.free + 1 } part
      ({ s with otp := { s.otp with svn := part }, chip := ch }, .reply (failAt 3 stDenied))

/-! ### XN_FW_QUERY (R325) -/

def imgCode (st : ImgState) : Nat :=
  match st with
  | .empty => 0
  | .staging => 1
  | .verified => 2
  | .invalid => 3
  | .running => 4

/-- RELEASE of a slot: zero unless VERIFIED or RUNNING. -/
def ifKnown (i : Img) (v : Nat) : Nat := if i.st = .verified || i.st = .running then v else 0

/-- RESULT of XN_FW_QUERY (Table 13.11). -/
def fwView (s : State) : Nat :=
  let fw := s.chip.fw
  let inUse := fw.setInUse.getD 0
  let seq := match fw.setInUse with | some c => (if c = 0 then fw.set0 else fw.set1).release | none => 0
  let stager := match fw.stage with | some g => if g.mb = 1024 then 1 else 2 | none => 0
  let target := match fw.stage with | some g => g.target | none => 0
  let staged := match fw.stage with | some g => stagedBytes g | none => 0
  rb 0x10 1 fw.running ||| rb 0x11 1 fw.bootSlot ||| rb 0x12 1 (imgCode fw.imgA.st) ||| rb 0x13 1 (imgCode fw.imgB.st) |||
    rb 0x14 4 (ifKnown fw.imgA fw.imgA.release) ||| rb 0x18 4 (ifKnown fw.imgB fw.imgB.release) |||
    rb 0x1C 1 fw.imgA.svn ||| rb 0x1D 1 fw.imgB.svn ||| rb 0x1E 1 s.otp.svn |||
    rb 0x1F 1 (imgCode fw.set0.st) ||| rb 0x20 1 (imgCode fw.set1.st) ||| rb 0x21 1 inUse ||| rb 0x24 4 seq |||
    rb 0x28 1 stager ||| rb 0x29 1 target ||| rb 0x2C 4 staged

/-- XN_FW_QUERY. -/
def execXnFwQuery (mb : Fin 1028) (s : State) : Out :=
  onState s fun s => runCommand s mb (isOp 0x0B01) [] fun s _ => (s, .reply (okWith (fwView s)))

end Sys2Proof.Machine
end

