-- ==== Sys2Proof/Machine/HostReset.lean ====
section
/-! DEFINITION. HOST_RST_N and its reach (21_integration.md R475 to R477; Table 11.10; R55, R107, R149, R172, R200, R329, R440). -/

namespace Sys2Proof.Machine

/-! ### While HOST_RST_N is low (R475) -/

/-- Accesses of the control port in flight end in an error response. -/
def controlErrors (ch : Chip) : Chip :=
  match ch.ctl.stall with
  | some _ => { ch with ctl := { ch.ctl with stall := none, behind := [], err := true, data := 0 } }
  | none => ch

/-- Every stream and line port is disabled, and every sweep and line job of a line port with it pauses (R55, R200, R217). -/
def disableAll (ch : Chip) : Chip :=
  let ch := { ch with
    ports := Tbl.mapVals {} (fun _ pt => { pt with st := .disabled, pe := {} }) ch.ports
    lines := Tbl.mapVals {} (fun _ l => { l with st := .disabled }) ch.lines }
  (ch.lines.map (·.1)).foldl pauseSweeps ch

/-- HOST_RESET_ASSERT. While PWR_OK is low HOST_RST_N is ignored. -/
def execHostResetAssert (s : State) : Out :=
  onChip s fun ch =>
    if ch.ctl.hostReset then ch
    else
      let ch := disableAll (controlErrors ch)
      { ch with ctl := { ch.ctl with hostReset := true } }

/-! ### The reach (Table 21.5) -/

/-- A stream port's queues, buffers, contexts and accumulators are cleared: every open row is discarded (cause 5 of Table 7.5),
and every request ends for its in-flight counts and its generation. -/
def resetPort (ch : Chip) (p : Nat) : Chip :=
  let pt := getPort ch p
  let ch := pt.cur.rows.foldl (fun ch row => discardRow ch p { row with closer := none } 5 0x60) ch
  let ch := pt.reqs.foldl releaseReq ch
  setPort ch p { piClk := pt.piClk, peClk := pt.peClk, portCredit := pt.portCredit, nextRid := pt.nextRid }

/-- A line port answers what it has taken (R198), and its queues and error counters are cleared. -/
def resetLine (ch : Chip) (p : Nat) : Chip :=
  modLine (lineAbort ch p stAborted) p fun l => { l with st := .disabled, cause := 0, refused := 0, ecc := 0, auth := 0 }

/-- The registers of a mailbox page that return to their reset values (R329). -/
def resetMbRegs (m : Mailbox) : Mailbox :=
  { m with badring := 0, badwrite := 0, blob := [], keyData := [], blobOut := none, attPend := m.attPend &&& 0xFFFD }

/-- The slots of a mailbox: one whose command executes stays, the others become FREE (Table 11.10). -/
def resetMbSlots (m : Mailbox) : Mailbox :=
  { m with order := [], slots := m.slots.filter fun e => e.2.st = .executing }

/-- The attention queue: RESPONSE entries go, the others are set pending again (Table 11.10). -/
def resetAtt (ch : Chip) : Chip :=
  let att := ch.ctl.att
  let ch := { ch with ctl := { ch.ctl with att := [] } }
  (att.filter fun (e : Nat × Nat) => e.2 != 1).foldl (fun ch e => attSetPend ch e.1 (attPendOf ch e.1 ||| 1 <<< e.2)) ch

/-- The mailboxes under HOST_RST_N (R250): the executing command's response will be discarded. -/
def resetMailboxes (ch : Chip) : Chip :=
  let ch := { ch with
    mbs := Tbl.mapVals {} (fun _ m => { resetMbSlots m with attPend := m.attPend &&& 0xFFFD }) ch.mbs
    quince := { ch.quince with exec := ch.quince.exec.map fun x => { x with dropped := true } } }
  attPump (resetAtt ch)

/-- The mailbox part that waited for the end of a handover (R449). -/
def lateMailboxes (ch : Chip) : Chip :=
  if ch.fw.mbReset then resetMailboxes { ch with fw := { ch.fw with mbReset := false } } else ch

/-- Damson resumes at the next lease it has never reserved (R149): nothing is handed out from the leases it holds. A reservation
in flight is finished first (DESIGN CHOICE, log entry 143). -/
def resetDamson (s : State) : State :=
  let m := s.chip.damson
  if m.stopped || m.highest.isNone then s
  else startChange { s with chip := setDamson s.chip fun m => { m with resume := true, current := none, next := none, filling := true } }

/-- Clusters keep their key files; their staging is cleared, and their sub-lease registers are empty until Damson has
resumed, since no value of an earlier lease is handed out after a reset (R141, R149; DEDUCED, log entry 26). -/
def resetClusters (ch : Chip) : Chip :=
  { ch with clusters := Tbl.mapVals {} (fun _ cl =>
      { cl with fwdIn := [], retIn := [], staging := [], retry := [], stuck := [], secondAt := [], cur := none, nxt := none }) ch.clusters }

/-- The reach of HOST_RST_N. -/
def hostReach (s : State) : State :=
  let ch := (s.chip.ports.map (·.1)).foldl resetPort s.chip
  let ch := (ch.lines.map (·.1)).foldl resetLine (resetClusters ch)
  let ch := { ch with
    mbs := Tbl.mapVals {} (fun _ m => resetMbRegs m) ch.mbs
    quince := { ch.quince with staged := [], dirty := [] } }
  let ch := { endStage ch with fw := { (endStage ch).fw with window := [] } }
  let ch := if ch.fw.handover then { ch with fw := { ch.fw with mbReset := true } } else resetMailboxes ch
  let ch := event { ch with ctl := { ch.ctl with reachDue := false } } 0x0002 0 none []
  xsStartBoth (resetDamson { s with chip := ch })

/-- HOST_RESET_RELEASE. Before READY the reach waits for step B9. -/
def execHostResetRelease (s : State) : Out :=
  onState s fun s =>
    if !s.chip.ctl.hostReset then s
    else
      let s := { s with chip := { s.chip with ctl := { s.chip.ctl with hostReset := false } } }
      if s.chip.dstate = 0 then { s with chip := { s.chip with ctl := { s.chip.ctl with reachDue := true } } }
      else hostReach s

end Sys2Proof.Machine
end

