-- ==== Sys2Proof/Machine/Handover.lean ====
section
/-! DEFINITION. The hitless handover of XN_FW_ACTIVATE with WHEN NOW (19_persistence.md, R447 to R449). -/

namespace Sys2Proof.Machine

/-- The bound of steps 2 to 4, in microseconds (R447). -/
def handoverUs : Nat := 50000

/-- The handover's job ends, and no activation runs. -/
def activateEnd (ch : Chip) (status : Nat) : Chip :=
  match ch.fw.activate with
  | some (h, _) => jobDue { ch with fw := { ch.fw with activate := none } } h status 0 0
  | none => ch

/-- The handover block that the old firmware writes (R447 step 2). -/
def handoverBlock (ch : Chip) : HandoverBlock :=
  { version := (runningImg ch).hbOut
    jobs := ch.mbs.map fun e => (e.1, e.2.jobs)
    session := ch.keys.session
    allow := (ch.keys.offA.allowUntil, ch.keys.offB.allowUntil)
    stage := ch.fw.stage
    rewrite := ch.quince.rewrite }

/-- Step 2 (R447): HANDOVER is set, the block is written to the new bank, and the old bank becomes wholly unwritable. -/
def beginHandover (ch : Chip) : Chip :=
  let fw := { ch.fw with handover := true, handoverAt := ch.cycle }
  let fw := setBank fw (1 - fw.bank) { getBank fw (1 - fw.bank) with block := some (handoverBlock ch) }
  { ch with fw := setBank fw fw.bank { getBank fw fw.bank with closed := true } }

/-- Step 1 (R447): the idle bank is cleared, the target slot copied into it, and the copy checked. One that fails is INVALID, and
the job ends with ST_ABORTED (R323). One that passes is locked, and step 2 follows. -/
def handoverBegin (s : State) (slot : Nat) : State :=
  let ch := (loadBank s (1 - s.chip.fw.bank) slot none).chip
  match checkSlot s slot none with
  | .error _ => { s with chip := activateEnd { ch with fw := setImgOf ch.fw 1 slot .invalid } stAborted }
  | .ok _ => { s with chip := beginHandover ch }

/-- HANDOVER_BEGIN, due when an activation waits and no command executes. -/
def execHandoverBegin (s : State) : Out :=
  onState s fun s =>
    match s.chip.fw.activate with
    | some (_, slot) => if s.chip.fw.handover || s.chip.quince.exec.isSome then s else handoverBegin s slot
    | none => s

/-- HANDOVER clears, and mailboxes are served again. -/
def handoverOver (ch : Chip) : Chip :=
  lateMailboxes { rebuildMirror ch with fw := { ch.fw with handover := false } }

/-- The version of the block in the new bank lies within the header range of the new image (R447 step 4). -/
def blockReadable (fw : Fw) (new : Img) : Bool :=
  match (getBank fw (1 - fw.bank)).block with
  | some b => new.hbMin ≤ b.version && b.version ≤ new.hbOut
  | none => false

/-- Steps 3 to 5 (R447): the new firmware runs from the new bank, MATCH is computed again, and the boot record is requested. What
the block holds has one home in State, where only hardware has changed it since (R449; log entry 6). -/
def handoverReady (s : State) (slot : Nat) : State :=
  let fw := s.chip.fw
  let fw := modImgOf fw 1 fw.running fun i => { i with st := .verified }
  let fw := modImgOf fw 1 slot fun i => { i with st := .running }
  let ch := handoverOver { s.chip with fw := { fw with running := slot, bank := 1 - fw.bank, bootSlot := slot, bootRecDue := true } }
  let ch := bootWritten (writeBoot (setMatch ch))
  xsStartBoth (vaultEraseStep { s with chip := ch })

/-- HANDOVER_READY, due within 50 ms of the beginning when the new firmware reads the block. -/
def execHandoverReady (s : State) : Out :=
  onState s fun s =>
    let ch := s.chip
    match ch.fw.activate with
    | some (_, slot) =>
      if ch.fw.handover && ch.cycle < ch.fw.handoverAt + handoverUs * usCycles ch &&
          blockReadable ch.fw (imgOf ch.fw 1 slot) then handoverReady s slot else s
    | none => s

/-- The old bank serves again, where the old firmware stopped (R448). -/
def reopenBank (ch : Chip) : Chip :=
  { ch with fw := setBank ch.fw ch.fw.bank { getBank ch.fw ch.fw.bank with closed := false } }

/-- HANDOVER_TIMEOUT (R448), due 50 ms after the beginning: the old firmware goes on. -/
def execHandoverTimeout (s : State) : Out :=
  onState s fun s =>
    let ch := s.chip
    if !ch.fw.handover || ch.cycle < ch.fw.handoverAt + handoverUs * usCycles ch then s
    else
      let release := match ch.fw.activate with | some (_, slot) => (imgOf ch.fw 1 slot).release | none => 0
      let ch := event (reopenBank (handoverOver ch)) 0x0008 1 none [(release, 32)]
      xsStartBoth (vaultEraseStep { s with chip := activateEnd ch stAborted })

end Sys2Proof.Machine
end

