-- ==== Sys2Proof/Machine/Recorder.lean ====
section
/-! DEFINITION. The recorder's halves (18_records.md R411 to R416) and the ends of flash operations (19_persistence.md R421, R426
to R428). -/

namespace Sys2Proof.Machine

/-- RECORDER_FLUSH_TIMER, due 100 ms after the first Pip entered the filling half. -/
def execRecorderFlushTimer (s : State) : Out :=
  onChip s fun ch =>
    let r := ch.recorder
    if r.filling.isEmpty || ch.cycle < r.since + 100000 * usCycles ch then ch else recHand ch

/-- XN_LOG_FLUSH answers once every half that held a Pip at its start is verified, or the log is full (R313). -/
def flushAnswer (ch : Chip) : Chip :=
  match ch.quince.exec with
  | some x =>
    (match x.wait with
    | .flush n =>
      if n ≤ 1 || ch.recorder.full then finishExec ch (okWith (rb 0x10 4 ch.recorder.wpos))
      else { ch with quince := { ch.quince with exec := some { x with wait := .flush (n - 1) } } }
    | _ => ch)
  | none => ch

/-- The half that was handed to flash is free (R411): the filling half follows when it waits, and a log whose last position
is written is FULL (R416). -/
def freeHalf (s : State) : State :=
  let r := s.chip.recorder
  let full := decide (logSize ≤ r.wpos)
  let r :=
    if full then { r with handed := [], filling := [], waiting := false, full := true }
    else if r.waiting then { r with handed := r.filling, left := r.filling.length, filling := [], waiting := false }
    else { r with handed := [] }
  clearStep { s with chip := flushAnswer (recKick { s.chip with recorder := r }) }

/-- RECORDER_HALF_VERIFIED, due when every Pip of the handed half has read back on every device in service. -/
def execRecorderHalfVerified (s : State) : Out :=
  onState s fun s =>
    let r := s.chip.recorder
    if r.handed.isEmpty || r.left != 0 || r.paused then s else freeHalf s

/-- FLASH_PROGRAM_DONE. -/
def execFlashProgramDone (d : Fin 2) (ok : Bool) (s : State) : Out := onState s fun s => programDone s d ok

/-- FLASH_ERASE_DONE. -/
def execFlashEraseDone (d : Fin 2) (ok : Bool) (s : State) : Out := onState s fun s => eraseDone s d ok

/-- FLASH_OPERATION_TIMEOUT, due when the operation on the bus has taken twice its limit (R421). -/
def execFlashOperationTimeout (d : Fin 2) (s : State) : Out :=
  onState s fun s =>
    let x := getXspi s.chip d
    match x.bus with
    | some op => if s.chip.cycle < x.busSince + opLimitUs x op * usCycles s.chip then s else xsStartBoth (deviceFail s d)
    | none => s

/-- The valid lease record with the highest LEASE on a device: LEASE, boot count, position. -/
def leaseLatest (f : Tbl FlitData) : Option (Nat × Nat × Nat) :=
  let pages := f.filter fun e => 0x30000 ≤ e.1 && e.1 < 0x40000
  let recs := pages.flatMap fun e => (List.range 8).filterMap fun i =>
    let pos := 8 * (e.1 - 0x30000) + i
    (leaseRead f pos).map fun r => (r.1, r.2, pos)
  recs.foldl (fun (best : Option (Nat × Nat × Nat)) r =>
    match best with
    | some b => if b.1 < r.1 then some r else best
    | none => some r) none

/-- Where a device writes its next lease record (R149, R427). -/
def leaseNext (f : Tbl FlitData) : Nat :=
  match leaseLatest f with
  | some (_, _, p) => (p + 1) % journalPositions
  | none => 0

/-- A device comes into service: its rings and Damson's write position are taken from its contents, and the journal sectors
ahead are erased (R149). -/
def deviceIn (s : State) (d : Fin 2) : State :=
  let f := getFlash s d
  let x := ringsFrom f { getXspi s.chip d with inService := true, recovery := none }
  let ch := setDamson (setXspi s.chip d x) fun m => setWpos m d (leaseNext f)
  xsStartBoth (journalAhead { s with chip := recKick (vaultKick ch) } d)

/-- MIRROR_RECOVERY_DONE, due when the directory of a recovering device is verified (R427). -/
def execMirrorRecoveryDone (d : Fin 2) (s : State) : Out :=
  onState s fun s =>
    let x := getXspi s.chip d
    match x.recovery with
    | some k =>
      if k = recoveryEnd && (xsOps x).isEmpty && directoryMine (getFlash s d) then deviceIn s d else s
    | none => s

end Sys2Proof.Machine
end

