-- ==== Sys2Proof/Machine/Power.lean ====
section
/-! DEFINITION. Power: PFAIL_N (19_persistence.md R445, R446), the loss of main power (21_integration.md R473), and the
always-on supply (17_boundary.md R380; R472, R474). -/

namespace Sys2Proof.Machine

/-! ### PFAIL_N -/

/-- A vault record of a command whose programming has not begun is given up with the command (R263, R132). -/
def dropCommandRecord (ch : Chip) : Chip :=
  match takeFirst (fun v : VaultReq => v.why = .command) ch.fw.vaultQ with
  | none => ch
  | some (v, rest) =>
    let first := decide (ch.fw.vaultQ.head? = some v)
    if first && vaultBegun ch then ch
    else
      let ch := if first then dropVaultOps ch else ch
      vaultAbort { ch with fw := { ch.fw with vaultQ := rest } } 5

/-- PFAIL_ASSERT: the recorder hands its half over (R413), staging jobs end (R321), and a command whose vault record has not
begun ends. What a controller has on its bus goes on. -/
def execPfailAssert (s : State) : Out :=
  onChip s fun ch =>
    if ch.pfail then ch
    else dropCommandRecord (stageFail (recHand { ch with pfail := true }))

/-- The reservation that PFAIL_N kept from starting is started (R151): that of a boot's recovery (R444), one that waits, or the
next. -/
def leaseResume (s : State) : State :=
  match s.chip.damson.recover with
  | some jmax => resumeAfterBoot s jmax
  | none =>
  match s.chip.damson.res with
  | some r => if s.chip.damson.blocked || r.ok0 || r.ok1 then s else leaseTry s
  | none => startNext (startChange s)

/-- PFAIL_DEASSERT: every activity resumes (R446). -/
def execPfailDeassert (s : State) : Out :=
  onState s fun s =>
    if !s.chip.pfail then s
    else
      let s := { s with chip := vaultKick { s.chip with pfail := false } }
      let s := vaultCompact (leaseResume s)
      let s := vaultEraseStep (recoveryStep (recoveryStep s 0) 1)
      xsStartBoth { s with chip := bootWritten (recKick s.chip) }

/-! ### Main power -/

/-- The pages of a sector after an erase that power cut short: bits that were set stay set, the others are free (log entry
7). -/
def tornErase (ch : Chip) (f : Tbl FlitData) (addr : Nat) : Tbl FlitData :=
  Tbl.mapVals (BitVec.allOnes 2048) (fun k v =>
    if k / 256 = addr / 0x10000 then
      v ||| BitVec.ofNat 2048 (ofLE ((List.range 32).flatMap fun i => bvBytes 8 (Config.freeWord (ch.free + 32 * k + i))))
    else v) f

/-- The operation on a device's bus is cut short. -/
def cutOff (s : State) (d : Fin 2) : State :=
  let x := getXspi s.chip d
  match x.bus with
  | none => s
  | some op =>
    match opProgram s.chip d op with
    | some (addr, bs) => setFlash s d (flashProgram (getFlash s d) addr (tornBytes s.chip bs))
    | none => setFlash s d (tornErase s.chip (getFlash s d) ((eraseAt x op).getD op.addr))

/-- PWR_OK falls: everything that it holds is lost. The counter of free values goes on. -/
def powerLoss (s : State) : State :=
  let s := cutOff (cutOff s 0) 1
  { s with chip := { powered := false, free := s.chip.free + 0x1000000 } }

/-- POWER_LOSS. -/
def execPowerLoss (s : State) : Out := .next (if s.chip.powered then powerLoss s else s)

/-! ### The always-on supply -/

/-- AON_SUPPLY_START: Rind's AON domain starts with its initial values (R380). -/
def execAonSupplyStart (s : State) : Out := .next (if s.aon.present then s else { s with aon := {} })

/-- AON_SUPPLY_LOSS: what the AON domain holds is lost (R474). -/
def execAonSupplyLoss (s : State) : Out := .next { s with aon := { present := false } }

end Sys2Proof.Machine
end

