-- ==== Sys2Proof/Machine/Boot.lean ====
section
/-! DEFINITION. The boot (19_persistence.md, R440 to R444; Table 19.9): POWER_ON_RESET runs B1 to B8, BOOT_READY runs B9 and what
follows READY. What the steps read is taken from a view of the devices in which a format is already done; the erases and programs
themselves wait in the controllers' queues, before everything else. -/

namespace Sys2Proof.Machine

def devices : List (Fin 2) := [0, 1]

/-! ### B1 -/

/-- A slice that fails its boot test is DOWN with cause 4; the others of its set are all active (R369, R370). -/
def bootSet (ids bad : List Nat) (ch : Chip) : Chip :=
  ids.foldl (fun ch id =>
    let st : UState := if bad.contains id then .down else .active
    let cause := if bad.contains id then 4 else 0
    setUnit ch id { getUnit ch id with live := st, mirror := st, cause := cause }) ch

/-- A unit that has no slice left is DOWN with cause 4. -/
def bootDown (ch : Chip) (id : Nat) : Chip :=
  setUnit ch id { getUnit ch id with live := .down, mirror := .down, cause := 4 }

/-- The slices of a cluster after their boot tests. -/
def bootCluster (bad : List Nat) (ch : Chip) (c : Nat) : Chip :=
  let ids := (List.range 17).map (srcSlice c)
  if !ids.any bad.contains then ch
  else
    let ch := bootSet ids bad ch
    if ids.all bad.contains then
      bootDown { ch with quince := { ch.quince with rewrite := ch.quince.rewrite ++ [c] } } (srcCluster c)
    else ch

/-- The slices of a line port after their boot tests. -/
def bootLine (bad : List Nat) (ch : Chip) (p : Nat) : Chip :=
  let ids := (List.range 9).map (srcLineSlice p)
  if !ids.any bad.contains then ch
  else
    let ch := bootSet ids bad ch
    if ids.all bad.contains then modLine (bootDown ch (srcLine p)) p fun l => { l with st := .fenced, cause := 3 } else ch

/-- Every unit as the boot tests find it. -/
def bootUnits (ch : Chip) (b : BootInputs) : Chip :=
  let badS := b.badStream.map fun x => srcSlice (x.val / 17) (x.val % 17)
  let badL := b.badLine.map fun x => srcLineSlice (x.val / 9) (x.val % 9)
  let ch := (List.range 64).foldl (bootCluster badS) ch
  let ch := (List.range 32).foldl (bootLine badL) ch
  b.badCurrant.foldl (fun ch (u : Fin 64) => bootDown ch (srcCurrant u)) ch

/-- The chip right after PWR_OK, with the inputs it samples (R468, R444). -/
def bootChip (s : State) (b : BootInputs) : State :=
  let mul := if 16 ≤ b.coreMul.val && b.coreMul.val ≤ 21 then b.coreMul.val else 20
  let chip : Chip := { coreMul := mul, pfail := b.pfail, free := s.chip.free, rng := { powerOn := s.chip.free } }
  let aon := { s.aon with zeroize := s.aon.tripped != 0, fused := if s.aon.present then s.otp.disabled else s.aon.fused }
  { s with chip := bootUnits chip b, aon := aon }

/-! ### B2: discovery and directories (R420, R425) -/

/-- Mark a device as it answered; one that does not raises FK_FLASH (R421). -/
def bootAnswer (ch : Chip) (d : Fin 2) (answers : Bool) : Chip :=
  let ch := modXspi ch d fun x => { x with answers := answers }
  if answers then ch else raise ch (srcXspi d.val) fkFlash (ctxPlain d.val)

/-- A directory that is valid and carries another DEVICE_ID. -/
def directoryForeign (f : Tbl FlitData) : Bool := directoryValid f && !directoryMine f

def bootOp (addr : Nat) (bytes : Option (List Byte)) : FlashOp :=
  { owner := .damson, tag := .repair, addr := addr, bytes := bytes }

/-- The sectors of a format: every one that is not blank but the image slots, the rings first and the directory last. -/
def formatSectors (f : Tbl FlitData) : List Nat :=
  let ks := ((f.map (·.1 / 256)).eraseDups).filter fun k => !(0x100 ≤ k && k < 0x300)
  ks.filter (fun k => 1 ≤ k && k < 7) ++ ks.filter (fun k => 7 ≤ k) ++ ks.filter (· = 0)

/-- What a formatted device holds of what it held. -/
def formatView (f : Tbl FlitData) : Tbl FlitData := f.filter fun e => 0x10000 ≤ e.1 && e.1 < 0x30000

/-- The sector whose erase power cut short: that of a device's latest intent ring record, when it is an intent (R429). -/
def cutSector (f : Tbl FlitData) : Option Nat :=
  match intentLatest f with
  | some (_, 1, k, _) => some k
  | _ => none

/-- A device takes its directory, after a format when one of the devices is foreign, or after the repair of a cut erase of the
directory's sector. -/
def bootFormat (foreign : Bool) (s : State) (d : Fin 2) : State :=
  let f := getFlash s d
  let sectors := if foreign then formatSectors f else if cutSector f = some 0 then [0] else []
  let erases := sectors.map fun k => bootOp (0x10000 * k) none
  let ops := erases ++ [bootOp 0 (some (directoryRecord d.val))]
  let ch := modXspi s.chip d fun x => { x with inService := true, queue := x.queue ++ ops }
  setFlash { s with chip := ch } d (if foreign then formatView f else f)

/-- Which devices are in service (R425). -/
def bootDirectories (s : State) : State :=
  let up := devices.filter fun d => (getXspi s.chip d).answers
  let mine := up.filter fun d => directoryMine (getFlash s d)
  if mine.isEmpty then
    let foreign := up.any fun d => directoryForeign (getFlash s d)
    up.foldl (bootFormat foreign) s
  else { s with chip := mine.foldl (fun ch d => modXspi ch d fun x => { x with inService := true }) s.chip }

/-- The sector other than a journal or log sector whose cut erase is repaired after READY (R429); the directory that the boot
itself writes is repaired before it. -/
def repairLater (f : Tbl FlitData) : Option Nat :=
  match cutSector f with
  | some k => if (0x300 ≤ k && k < 0x700) || (k = 0 && !directoryMine f) then none else some k
  | none => none

/-- The rings of the devices in service, and what an interrupted erase leaves to be done (R424, R429). -/
def bootRings (s : State) : State :=
  devices.foldl (fun s d =>
    if !(getXspi s.chip d).inService then s
    else
      let f := getFlash s d
      { s with chip := modXspi s.chip d fun x => { ringsFrom f x with repairAt := repairLater f } }) s

/-- The boot record in force, over the devices in service (R430); `secret` is SECRET_GEN. -/
def bootRecordRead (s : State) (secret : Nat) : State :=
  let best := (serviceFlash s).foldl (fun (best : Option (Nat × Nat × List Byte)) f =>
    match best, bootLatest f with
    | some a, some b => if a.1 < b.1 then some b else some a
    | none, r => r
    | r, none => r) none
  let fw := s.chip.fw
  let fw := match best with
    | some (seq, _, b) =>
      { fw with bootSeq := seq, bootSlot := ofLE ((b.drop 4).take 1) % 2, setCopy := ofLE ((b.drop 5).take 1) % 2
                vaultGen := ofLE ((b.drop 6).take 1) }
    | none => { fw with vaultGen := secret }
  { s with chip := { s.chip with fw := fw } }

/-! ### B3 and B4 -/

/-- The image that runs: that of BOOTSLOT, else the other, else the boot ROM (R442, R443). -/
def bootImage (s : State) : State :=
  let a := s.chip.fw.bootSlot
  let run (slot : Nat) (i : Img) : State :=
    let s := loadBank s s.chip.fw.bank slot none
    let fw := modImgOf { s.chip.fw with running := slot } 1 slot fun _ => { i with st := .running }
    { s with chip := { s.chip with fw := fw } }
  match checkSlot s a none with
  | .ok i => run a i
  | .error _ =>
    match checkSlot s (1 - a) none with
    | .ok i => run (1 - a) i
    | .error _ =>
      let s := loadBank s s.chip.fw.bank (1 - a) none
      { s with chip := { s.chip with fw := { s.chip.fw with rom := true } } }

/-- LOCAL_SLOT of a TLV area (R137). -/
def tlvLocalSlot (area : List Byte) : Nat :=
  match (((tlvsOf area).getD []).filter fun (t : Nat × Nat × List Byte) => t.1 = 1).getLast? with
  | some t => ofLE (t.2.2.take 2)
  | none => 0

/-- The settings in force: those of SETCOPY, else the other copy's (B4). -/
def bootSettings (s : State) : State :=
  let a := s.chip.fw.setCopy
  let take (copy : Nat) (b : SettingsBlock) : State :=
    let s := loadCopy s copy 0x100000 none
    let fw := { s.chip.fw with setInUse := some copy, ownerKeys := b.keys, tlvs := b.tlvs }
    let fw := modImgOf fw 2 copy fun _ => { st := .running, release := b.seq }
    let ch := setDamson s.chip fun m => { m with localSlot := tlvLocalSlot b.tlvs, slot := tlvLocalSlot b.tlvs }
    { s with chip := { ch with fw := fw } }
  match checkCopy s a 0x100000 none with
  | .ok b => take a b
  | .error _ =>
    match checkCopy s (1 - a) 0x100000 none with
    | .ok b => take (1 - a) b
    | .error _ => s

/-- The group of the latest group record (R431). -/
def bootGroup (s : State) : State :=
  let best := (serviceFlash s).foldl (fun (best : Option (Nat × Nat × List Byte)) f =>
    match best, groupLatest f with
    | some a, some b => if a.1 < b.1 then some b else some a
    | none, r => r
    | r, none => r) none
  match best with
  | none => s
  | some (seq, _, b) =>
    let d := (b.drop 0x20).take 256
    let ch := { s.chip with fw := { s.chip.fw with groupSeq := seq } }
    if ofLE ((b.drop 4).take 1) = 1 && gdVerifies ch d then
      let ch := { ch with fw := { ch.fw with desc := d, group := 1, hasPrev := decide (0 < gdEpoch d) } }
      { s with chip := setDamson ch fun m => { m with slot := gdSlot d, grouped := true } }
    else { s with chip := ch }

/-! ### The recorder at boot (R414, R415, R418) -/

/-- Log positions that are not blank on a device. -/
def logUsed (f : Tbl FlitData) : List Nat :=
  (f.filter fun e => 0x40000 ≤ e.1 && e.1 < 0x70000).flatMap fun e =>
    (List.range 8).filterMap fun i =>
      if e.2.extractLsb' (256 * i) 256 = BitVec.allOnes 256 then none else some (8 * (e.1 - 0x40000) + i)

/-- The first log position that reads blank on every device in service. -/
def logFirstBlank (s : State) : Nat :=
  let used := (serviceFlash s).flatMap logUsed
  ((List.range (used.length + 1)).find? fun n => !used.contains n).getD used.length

/-- Log positions below the write position that two devices in service hold differently: they are spoiled (R414; DEDUCED, log
entry 149). -/
def logSpoiled (s : State) (w : Nat) : List Nat :=
  if s.chip.xspi0.inService && s.chip.xspi1.inService then
    ((logUsed s.flash0 ++ logUsed s.flash1).filter fun n =>
      n < w && flashRead s.flash0 (logBase + 32 * n) 32 != flashRead s.flash1 (logBase + 32 * n) 32).eraseDups
  else []

/-- BOOTS of the last valid Pip in the log. -/
def logBoots (s : State) (wpos : Nat) : Nat :=
  let one (f : Tbl FlitData) : List (Nat × Nat) :=
    ((logUsed f).filter (· < wpos)).filterMap fun n =>
      let p : Pip := (flashPage f (0x40000 + n / 8)).extractLsb' (256 * (n % 8)) 256
      if pipCheck p = fld p 48 16 then some (n, fld p 32 16) else none
  let best := ((serviceFlash s).flatMap one).foldl (fun (b : Option (Nat × Nat)) x =>
    match b with
    | some y => if y.1 < x.1 then some x else some y
    | none => some x) none
  match best with | some x => x.2 | none => 0

/-- Log sectors whose erase power cut short on a device in service. -/
def cutLog (s : State) : List Nat :=
  ((serviceFlash s).filterMap fun f => (cutSector f).filter fun k => 0x400 ≤ k && k < 0x700).eraseDups

/-- A cut erase of a log sector is done again, on every device that the recorder writes (R418, R429; DEDUCED, log entry 162). -/
def bootLogRepair (s : State) : State :=
  let gone (f : Tbl FlitData) (k : Nat) : Tbl FlitData := flashErase f (0x10000 * k)
  (cutLog s).foldl (fun s k =>
    logErase (devices.foldl (fun s d => if recDevice s.chip d then setFlash s d (gone (getFlash s d) k) else s) s) k) s

/-- The write position of the log; later sectors that are not blank are erased, and a clear that power interrupted is
completed. -/
def bootLog (s : State) : State :=
  let s := bootLogRepair s
  let w := logFirstBlank s
  let s := { s with chip := { s.chip with recorder := { s.chip.recorder with
    wpos := w, full := decide (logSize ≤ w), spoiled := logSpoiled s w } } }
  let own := if w % 2048 = 0 && (serviceFlash s).any fun f => !sectorBlank f (logBase + 32 * w) then [0x400 + w / 2048] else []
  let dirty := own ++ dirtyLog s
  let s := dirty.foldl logErase s
  if w = 0 && !(dirtyLog s).isEmpty then
    let cleared := mkPip 0x0005 0 (if s.chip.pfail then 4 else 0) s.chip.boots (nowUs s.chip) 0
    let pips := cleared :: otpPips s
    { s with chip := { s.chip with recorder := { s.chip.recorder with handed := pips, left := pips.length } } }
  else s

/-! ### Lease recovery (R149) -/

/-- The records that recovery reads of one device: LEASE and boot count. -/
def scannedLeases (f : Tbl FlitData) : List (Nat × Nat) :=
  let recs := (f.filter fun e => 0x30000 ≤ e.1 && e.1 < 0x40000).flatMap fun e => (List.range 8).filterMap fun i =>
    let pos := 8 * (e.1 - 0x30000) + i
    (leaseRead f pos).map fun r => (pos, r)
  let first := (recs.filter fun x => x.1 % 2048 = 0).foldl (fun (b : Option (Nat × Nat × Nat)) x =>
    match b with
    | some y => if y.2.1 < x.2.1 then some x else some y
    | none => some x) none
  match first with
  | some h => (recs.filter fun x => (x.1 / 2048 + 256 - h.1 / 2048) % 256 < 3).map (·.2)
  | none => recs.map (·.2)

/-- The records read of every device that answers. -/
def allLeases (s : State) : List (Nat × Nat) :=
  (devices.filter fun d => (getXspi s.chip d).answers).flatMap fun d => scannedLeases (getFlash s d)

/-- The boot count (R415); `leases` are the lease records that are read. -/
def bootCount (s : State) (leases : List (Nat × Nat)) : Nat :=
  ((leases.map (·.2)).foldl max (logBoots s (logFirstBlank s)) + 1) % 65536

/-- The shadow's two words are compared (R148). -/
def checkShadow (s : State) : State :=
  let a := s.aon
  if a.present && a.shadowValid && a.shadow + a.shadowInv != 2 ^ 44 - 1 then
    { s with aon := { a with shadowValid := false }, chip := event s.chip 0x0402 1 none [] }
  else s

/-- An interrupted journal erase is done again first (B6, R429). -/
def bootJournalRepair (s : State) : State :=
  devices.foldl (fun s d =>
    if !(getXspi s.chip d).inService then s
    else
      match cutSector (getFlash s d) with
      | some k =>
        if 0x300 ≤ k && k < 0x400 then
          let op := bootOp (0x10000 * k) none
          setFlash { s with chip := modXspi s.chip d fun x => { x with queue := x.queue ++ [op] } } d
            (flashErase (getFlash s d) (0x10000 * k))
        else s
      | none => s) s

/-- Write positions, and the erase of the two sectors ahead (R149, R147). -/
def bootPositions (s : State) : State :=
  devices.foldl (fun s d =>
    if !(getXspi s.chip d).answers then s
    else
      let w := leaseNext (getFlash s d)
      let s := { s with chip := setDamson s.chip fun m => setWpos m d w }
      if (getXspi s.chip d).inService then journalAhead s d else s) s

/-- Lease recovery and the resume reservation (B7), which waits while PFAIL_N is asserted (R151, R444). -/
def bootLeases (s : State) (leases : List (Nat × Nat)) : State :=
  let s := checkShadow s
  let jmax := leases.foldl (fun (b : Option Nat) r => some (match b with | some m => max m r.1 | none => r.1)) none
  let s := bootPositions s
  if s.chip.pfail then { s with chip := setDamson s.chip fun m => { m with recover := some jmax } }
  else resumeAfterBoot s jmax

/-! ### Evidence (R396) -/

/-- Put a record at its place in ascending AONTICK order, after those of its own tick. -/
def insertTick (x : Evidence × Bool) : List (Evidence × Bool) → List (Evidence × Bool)
  | [] => [x]
  | y :: ys => if x.1.tick < y.1.tick then x :: y :: ys else y :: insertTick x ys

/-- Steps of the tamper counter that an earlier boot left. -/
def owedSteps : Nat → State → State
  | 0, s => s
  | n + 1, s => owedSteps n (tamperStep s).1

/-- The evidence that waits is written: owed steps, the start of the always-on supply, then owed and latched records in ascending
tick, and last the kill of this boot. While PFAIL_N is asserted it stays in the latch. -/
def bootEvidence (s : State) (killed : Option Nat) : State :=
  let kill (s : State) : State := match killed with
    | some g => takeEvidence s (evidenceNow s 5 0 0 0 (BitVec.ofNat 128 g))
    | none => s
  if s.chip.pfail then kill s
  else
    let n := s.otp.owedSteps
    let s := owedSteps n { s with otp := { s.otp with owedSteps := 0 } }
    let s := if s.aon.present && s.aon.started && s.otp.locked then
        logWrite s { evidenceNow s 4 0 0 0 0 with tick := 0, fromAon := true } else s
    let owed := s.otp.owed.map fun e => (e, false)
    let all := (s.aon.latch.map fun e => (e, true)).foldl (fun l x => insertTick x l) (owed.foldl (fun l x => insertTick x l) [])
    let s := { s with otp := { s.otp with owed := [] }, aon := { s.aon with latch := [], started := false } }
    kill (all.foldl (fun s x => if x.2 then evidenceWrite s x.1 else logWrite s x.1) s)

/-- A pending kill is programmed (R135): the state, and the secret killed. -/
def bootKill (s : State) : State × Option Nat :=
  let g := secretInUse s.otp
  let s := { s with aon := { s.aon with killPending := false } }
  if g < 4 then
    ({ s with otp := { s.otp with killed := s.otp.killed ||| (1#4 <<< g) }
              chip := { s.chip with killedAtBoot := true } }, some g)
  else (s, none)

/-- The lowest source whose TRIPPED latch is set. -/
def trippedSource (s : State) : Option Nat := ((List.range 24).find? fun i => s.aon.tripped.getLsbD i).map srcMonitor

/-- A TRIPPED latch enters ZEROIZE again (R389): no secret is killed and no record written. -/
def bootZeroize (s : State) (src : Nat) : State :=
  let ch := s.chip
  let f := { ch.faults with react := 2, cause := src, haltAt := ch.cycle }
  let ch := setDamson { ch with faults := f, dstate := 3 } fun m => { m with stopped := true }
  { s with chip := event ch 0x0308 4 none [(src, 16)] }

/-! ### Keys and the vault (R105, R113) -/

/-- VK and TK are derived from the device secret in use (R105), and VAULTGEN is tested (R432): B5 of a boot without a trip. -/
def bootKeys (ch : Chip) : Chip :=
  let g := ch.keys.secretGen
  let ch := { ch with fw := { ch.fw with vaultErase := ch.fw.vaultGen != g } }
  if 4 ≤ g then ch
  else
    let ds := bvBytes 32 (Config.deviceSecret g)
    { ch with keys := { ch.keys with vk := some (deriveDeviceKey ds labelVault deviceIdBytes)
                                     tk := some (deriveDeviceKey ds labelXport deviceIdBytes) } }

/-- Load one record that unwraps: a KEK or GTK waits for CK in its blob, an officer key goes into its register (R108). -/
def loadRecord (ch : Chip) (source type idx : Nat) (blob plain : List Byte) : Chip :=
  if type = 3 then setOfficer ch idx { getOfficer ch idx with key := (plain.drop 16).take 32, enrolled := true }
  else { ch with keys := { ch.keys with awaitCk := ch.keys.awaitCk ++ [(type, idx, source, blob)] } }

/-- SOURCE of a KEK whose record returns from the vault (R110): as this device loaded it, else a free value (log entry 24). -/
def sourceAtBoot (known : Tbl Nat) (idx : Nat) : Nat :=
  match Tbl.get 0 known idx with
  | 0 => if Config.kekWrapped idx then 2 else 1
  | n => n

/-- A type and index of Table 5.4. -/
def vaultIndexOk (type idx : Nat) : Bool := (type = 1 && idx < 16384) || ((type = 2 || type = 3) && idx < 2)

/-- Load one index (R113): its record with the highest sequence on either device, from the device whose copy unwraps. -/
def loadIndex (known : Tbl Nat) (r0 r1 : List VaultRec) (ch : Chip) (key : Nat × Nat) : Chip :=
  let mine := (r0 ++ r1).filter fun r => recKey r = key
  let top := (mine.map (·.seq)).foldl max 0
  let last := mine.filter fun r => r.seq = top
  if !vaultIndexOk key.1 key.2 || last.any fun r => r.type = 4 then ch
  else
    match (custodyWrap ch key.1).bind fun k => last.findSome? fun r => (kwUnwrap k r.blob).map fun pt => (r.blob, pt) with
    | some x => loadRecord ch (sourceAtBoot known key.2) key.1 key.2 x.1 x.2
    | none => event ch 0x0306 1 none [(key.1, 8), (key.2, 16)]

/-- The vault's write position and sequence, and its load (B8), unless the vault is to be erased (R432). -/
def bootVault (s : State) : State :=
  let of (d : Fin 2) : List VaultRec := if (getXspi s.chip d).inService then vaultScan (getFlash s d) else []
  let r0 := of 0
  let r1 := of 1
  let all := r0 ++ r1
  let top := (all.map (·.seq)).foldl max 0
  let pos := match all.find? fun r => r.seq = top with | some r => (r.pos + 1) % vaultPositions | none => 0
  let ch := { s.chip with fw := { s.chip.fw with vaultSeq := top, vaultPos := pos } }
  { s with chip := if ch.fw.vaultErase then ch else ((all.map recKey).eraseDups).foldl (loadIndex s.kekSource r0 r1) ch }

/-! ### POWER_ON_RESET -/

/-- B6 to B8, of a boot with firmware and without a trip. -/
def bootCustody (s : State) (leases : List (Nat × Nat)) : State :=
  let s := bootVault (bootLeases s leases)
  { s with chip := { s.chip with booted := true } }

/-- B2 to B4 on the views of the devices. -/
def bootFirmware (s : State) (b : BootInputs) (secret : Nat) : State :=
  let s := { s with chip := bootAnswer (bootAnswer s.chip 0 b.answers0) 1 b.answers1 }
  let s := bootImage (bootRecordRead (bootRings (bootDirectories s)) secret)
  if s.chip.fw.rom then s else bootGroup (bootSettings s)

/-- EV_BOOT, the first Pip of the boot. -/
def evBoot (s : State) : State :=
  let st := if (trippedSource s).isSome then 3 else 0
  { s with chip := event s.chip 0x0001 0 none [(runningRelease s.chip, 32), (s.chip.keys.secretGen, 8), (st, 2)] }

/-- B1 to B8; the boot ROM alone skips B6 to B8 (R443). -/
def powerOn (s : State) (b : BootInputs) : State :=
  let f0 := s.flash0
  let f1 := s.flash1
  let s := bootChip s b
  let k := if s.aon.present && s.aon.killPending then bootKill s else (s, none)
  let s := k.1
  let secret := secretInUse s.otp
  let s := { s with chip := { s.chip with keys := { s.chip.keys with secretGen := secret } } }
  let s := bootFirmware s b secret
  let s := if s.chip.fw.rom then s else bootJournalRepair s
  let tripped := trippedSource s
  let leases := if s.chip.fw.rom || tripped.isSome then [] else allLeases s
  let s := { s with chip := { s.chip with boots := bootCount s leases } }
  let s := evEvidence (bootEvidence (evBoot (bootLog s)) k.2)
  let s := { s with chip := checkOvercommit (updateReplace s.chip) }
  let s := match tripped with
    | some src => bootZeroize s src
    | none =>
      let s := { s with chip := bootKeys s.chip }
      if s.chip.fw.rom then s else bootCustody s leases
  let s := { s with flash0 := f0, flash1 := f1 }
  xsStartBoth { s with chip := recKick s.chip }

/-- POWER_ON_RESET. -/
def execPowerOnReset (boot : BootInputs) (s : State) : Out := .next (powerOn (if s.chip.powered then powerLoss s else s) boot)

/-! ### BOOT_READY -/

/-- B9 is due: the steps before it have run, no boot erase or program is left, and the resume record is verified or blocked. -/
def readyDue (ch : Chip) : Bool :=
  let idle (x : Xspi) := !(xsOps x).any (·.tag = .repair)
  (ch.booted || ch.fw.rom) && ch.dstate = 0 && !halted ch && !ch.ctl.hostReset && idle ch.xspi0 && idle ch.xspi1 &&
    ch.damson.recover.isNone && (ch.damson.res.isNone || ch.damson.blocked)

/-- The owner roots that the settings in force program (R438): their key block's, and the successor of a ROTATE. -/
def bootRoots (s : State) : State :=
  if s.chip.fw.setInUse.isNone then s
  else
    let roots := if s.otp.roots.isEmpty then [sha384 s.chip.fw.ownerKeys] else s.otp.roots
    let roots := match rotateOf s.chip.fw.tlvs with | some r => roots ++ [r] | none => roots
    { s with otp := { s.otp with roots := roots } }

/-- An interrupted erase outside the journal and the log is done again after READY (R429). -/
def readyRepair (s : State) (d : Fin 2) : State :=
  match (getXspi s.chip d).repairAt with
  | none => s
  | some k =>
    let op : FlashOp := { owner := .quince, tag := .repair, addr := 0x10000 * k, bytes := none }
    let directory : FlashOp := { op with addr := 0, bytes := some (directoryRecord d.val) }
    let fw := s.chip.fw
    let bad (target which : Nat) (fw : Fw) : Fw := setImgOf fw target which .invalid
    let fw :=
      if k / 0x100 = 1 && (fw.rom || fw.running != 0) then bad 1 0 fw
      else if k / 0x100 = 2 && (fw.rom || fw.running != 1) then bad 1 1 fw
      else if k / 0x10 = 1 && fw.setInUse != some 0 then bad 2 0 fw
      else if k / 0x10 = 2 && fw.setInUse != some 1 then bad 2 1 fw
      else fw
    let ch := modXspi { s.chip with fw := fw } d fun x => { x with repairAt := none }
    let ch := xsPush ch d op
    { s with chip := if k = 0 then xsPush ch d directory else ch }

/-- What the check of the slots and copies that were not used at boot finds; the copies that it checks are made as VERIFY makes
them (DESIGN CHOICE, log entry 167). -/
def readyImages (s : State) : State :=
  let fw := s.chip.fw
  let image (slot : Nat) (s : State) : State :=
    if fw.rom || fw.running != slot then
      let s := loadBank s (1 - fw.bank) slot none
      { s with chip := { s.chip with fw := modImgOf s.chip.fw 1 slot fun _ => slotState s slot } }
    else s
  let block (copy : Nat) (s : State) : State :=
    if fw.setInUse != some copy then
      let s := loadCopy s copy 0x100000 none
      { s with chip := { s.chip with fw := modImgOf s.chip.fw 2 copy fun _ => copyState s copy } }
    else s
  block 1 (block 0 (image 1 (image 0 s)))

/-- A device found out of service at boot starts its recovery, when the other is in service (R427). -/
def readyRecovery (s : State) (d : Fin 2) : State :=
  let x := getXspi s.chip d
  let other := getXspi s.chip (if d = 0 then 1 else 0)
  if x.answers && !x.inService && other.inService then
    recoveryStep { s with chip := setXspi s.chip d { x with recovery := some 1 } } d
  else s

/-- What Quince does in the background after READY (R442). -/
def readyBackground (s : State) : State :=
  let s := readyRepair (readyRepair (readyImages s) 0) 1
  let s := vaultEraseStep s
  let s := readyRecovery (readyRecovery s 0) 1
  let fw := s.chip.fw
  let s := if !fw.rom && fw.bootSlot != fw.running then { s with chip := revertBoot s.chip } else s
  xsStartBoth (if fw.rom then s else vaultCompact s)

/-- B9 (R442): the settings as generation 0, CK, and the VITAL regions. -/
def readySettings (s : State) : State :=
  let s := bootRoots s
  let s := applyTlvs s s.chip.fw.tlvs
  let ch := setMatch (startVitals (drawCk s.chip))
  { s with chip := checkOvercommit (updateReplace ch) }

/-- BOOT_READY. -/
def execBootReady (s : State) : Out :=
  onState s fun s =>
    if !readyDue s.chip then s
    else
      let s := if s.chip.ctl.reachDue then hostReach s else s
      let s := if s.chip.fw.rom then s else readySettings s
      readyBackground { s with chip := { s.chip with dstate := 1 } }

end Sys2Proof.Machine
end

