-- ==== Sys2Proof/Machine/Egress.lean ====
section
/-! DEFINITION. The egress half of the stream ports: which flit is driven (R32, R33, R43, R46, R54, R93, R165), credit and
stall timers (R46, R47), the end of a request (R101, R117), and the loss of a clock (R18). -/

namespace Sys2Proof.Machine

/-! ### What can be driven -/

/-- The next flit of a message can leave: it is a closing flit, a STATUS, zeros, or payload of which 256 bytes are formed,
or the rest with its tail decided (R42, R76). -/
def flitReady (m : EMsg) : Bool :=
  let rest := m.outlen - m.sent
  if m.closed then true
  else if m.kind = 2 then m.ready && m.tail.isSome
  else if m.kind = 3 then true
  else m.ready && (if rest ≤ 256 then m.data.length = rest && m.tail.isSome else 256 ≤ m.data.length)

/-- A message may start: it stands first among its request's messages (R163, R41) and its first flit is ready. -/
def mayStart (ms : List EMsg) (m : EMsg) : Bool :=
  flitReady m && (ms.find? (·.rid = m.rid)) = some m

/-- The message of a class whose flit is ready: the open one (R32); else a ZERO_FILL (R76), then PARITY (R165), then the
oldest. -/
def classNext (pt : Port) (c : Fin 4) : Option EMsg :=
  let ms := pt.msgs.filter (·.cls = c)
  match ms.find? (·.headDriven) with
  | some m => if flitReady m then some m else none
  | none =>
    let start := ms.filter (mayStart pt.msgs)
    ((start.find? (·.kind = 3)).orElse fun _ => start.find? (·.kind = 1)).orElse fun _ => start.head?

/-- A class-c flit is ready, a report of a fence before any other (R54). -/
def classReady (pt : Port) (c : Fin 4) : Bool :=
  match pt.recs with
  | r :: _ => r.cls = c
  | [] => (classNext pt c).isSome

/-- The port can drive: it is enabled with its egress clock, or closes its messages under a reaction (R355). -/
def egressOn (ch : Chip) (pt : Port) : Bool :=
  pt.st = .enabled && pt.peClk && (!halted ch || ch.faults.closing)

/-! ### The end of a request -/

/-- A request leaves the context store with its reservations (R101, R117). -/
def completeReq (ch : Chip) (p rid : Nat) : Chip :=
  match findReq (getPort ch p) rid with
  | none => ch
  | some q => releaseReq (modPort ch p fun pt => { pt with reqs := pt.reqs.filter (·.rid != rid) }) q

/-- The last flit of a PARITY message frees its buffer; the last of the row's closes the row (R165). -/
def freeParity (ch : Chip) (p : Nat) (m : EMsg) : Chip :=
  if m.kind = 1 && sbOp m.sb = opEncode then
    let left (r : Row) : Row := if r.closer = some m.rid then { r with parityLeft := r.parityLeft - 1 } else r
    modPort ch p fun pt =>
      { pt with cur := { pt.cur with rows := (pt.cur.rows.map left).filter fun r => r.parityLeft != 0 } }
  else ch

/-- A flit of BRAMBLE_OUT leaves: its window waits for BRAMBLE_DONE from the last on, and FETCH_LIMIT runs from the flit driven
last (R208, R210). A message closed early counts
as driven with its closing flit (DESIGN CHOICE, log entry 137); one whose window FETCH_LIMIT has closed leaves without effect on
the range (DESIGN CHOICE, log entry 138). -/
def brambleDriven (ch : Chip) (p : Nat) (m : EMsg) (last : Bool) : Chip :=
  if m.kind != 4 then ch
  else
    match findReq (getPort ch p) m.rid with
    | none => ch
    | some q =>
      match brambleWindow ch q with
      | none => ch
      | some (j, r, w) =>
        let w' := { w with outBegun := true, outDone := w.outDone || last, since := nowUs ch }
        setRange ch j (some { r with win := some w' })

/-! ### EGRESS_FLIT_DRIVE -/

/-- The pins of a flit (R31, R40, R42, R43). -/
def flitPins (m : EMsg) (head tail : Bool) (bs : List Byte) (bytes : Nat) : EgressPins :=
  let st := m.tail.getD (0, 0)
  { valid := true, data := BitVec.ofNat 2048 (ofLE bs), cls := m.cls, head := head, tail := tail
    hsb := if head then mkHsb m.sb m.kind m.shard m.outlen m.last m.heldFlag m.hold m.iv else 0
    tsb := if tail then mkTsb st.1 st.2 (sbCookie m.sb) bytes m.kgen m.keyidx m.epoch else 0
    hold := m.hold, zf := decide (m.kind = 3) }

/-- Take a credit of a class. -/
def spendCredit (pt : Port) (c : Fin 4) : Port := { pt with credit := Quad.set pt.credit c (Quad.get pt.credit c - 1) }

/-- Drive the next flit of a message. -/
def driveMsg (ch : Chip) (p : Nat) (m : EMsg) : Chip :=
  let n := if m.closed || m.kind = 2 then 0 else min 256 (m.outlen - m.sent)
  let head := !m.headDriven
  let tail := m.closed || m.kind = 2 || m.outlen ≤ m.sent + n
  let bs := if m.kind = 3 || n = 0 then [] else m.data.take n
  let m' := { m with headDriven := true, sent := m.sent + n, data := m.data.drop n }
  let swap (ms : List EMsg) : List EMsg :=
    match takeFirst (· = m) ms with
    | some _ => if tail then (ms.erase m) else modifyFirst (· = m) (fun _ => m') ms
    | none => ms
  let pins := flitPins m head tail bs (m.sent + n)
  let ch := modPort ch p fun pt => { spendCredit pt m.cls with msgs := swap pt.msgs, pe := pins, lastHead := head }
  let ch := if m.hold then modReq ch p m.rid fun q => { q with holdSent := q.holdSent + n } else ch
  let ch := brambleDriven ch p m tail
  if tail then
    let ch := freeParity ch p m
    if m.ends then completeReq ch p m.rid else ch
  else ch

/-- Drive the next flit of the first record of a fence (R54): the ZERO_FILL of its HOLD-marked bytes, then its STATUS. -/
def driveRecord (ch : Chip) (p : Nat) (r : FenceRec) : Chip :=
  let base : EMsg := { sb := r.sb, cls := r.cls, shard := sbShard r.sb, iv := r.iv, tail := some (r.status, r.detail), epoch := r.epoch,
                       keyidx := r.keyidx, kgen := r.kgen }
  if r.zsent < r.zf then
    let n := min 256 (r.zf - r.zsent)
    let m := { base with kind := 3, outlen := r.zf }
    let head := decide (r.zsent = 0)
    let tail := decide (r.zsent + n = r.zf)
    modPort ch p fun pt =>
      { spendCredit pt r.cls with
        pe := flitPins m head tail [] (r.zsent + n), lastHead := head
        recs := { r with zsent := r.zsent + n } :: pt.recs.drop 1 }
  else
    modPort ch p fun pt =>
      { spendCredit pt r.cls with
        pe := flitPins { base with kind := 2, last := true } true true [] 0, lastHead := true, recs := pt.recs.drop 1 }

/-- A flit of an ENCODE is the last of its row, whose parity messages of class 0 are ready with it (R164). -/
def parityComing (ch : Chip) (p : Nat) (f : CurFlit) : Bool :=
  let pt := getPort ch p
  match (findReq pt f.rid).bind fun q => rowNo ch p q.row with
  | none => false
  | some row => f.off + f.bytes.length = 4112 && (row.passed ||| 1 <<< f.pos) = 2 ^ row.ck - 1 &&
      pt.msgs.any fun m => some m.rid = row.closer && m.kind = 1 && m.cls = 0 && !m.ready

/-- A flit of a class-0 REBUILD is its last, with which its messages are ready (R170). -/
def rebuildComing (pt : Port) (f : CurFlit) : Bool :=
  match findReq pt f.rid with
  | none => false
  | some q => q.cls = 0 && sbOp q.sb = opRebuild && q.curIn + f.bytes.length = q.ck * 4112

/-- A class-0 head flit is on its way, with credit to leave (R93): from the return half, from the Currant, or as a held message or
the STATUS of a VERIFY whose verdict has been computed. -/
def headComing (ch : Chip) (p : Nat) : Bool :=
  let pt := getPort ch p
  let starts (rid : Nat) : Bool := !pt.msgs.any fun m => m.rid = rid && m.headDriven
  let decided (q : Req) : Bool := match q.verdict with | .computed _ => true | _ => false
  Quad.get pt.credit 0 != 0 &&
    ((ch.clusters.any fun e => clusterRuns ch e.1 &&
        e.2.retIn.any fun o => o.port = p && o.cls = 0 && o.coding.isNone && starts o.rid) ||
      ((currantRuns ch p || currantPasses ch p) &&
        ((pt.cur.fromReturn.any fun f => (f.cls = 0 && f.off = 0) || parityComing ch p f) ||
          pt.cur.fromAdmission.any (rebuildComing pt))) ||
      pt.reqs.any fun q => q.cls = 0 && !q.dead && decided q && (q.held || sbOp q.sb = opVerify))

/-- A flit would be a head, which may not follow a head (R33); one of classes 1 to 3 is also held back in the cycle before a
class-0 head (R93). -/
def headBlocked (pt : Port) (coming : Bool) (m : EMsg) : Bool := !m.headDriven && (pt.lastHead || (coming && m.cls != 0))

/-- The message that the egress cycle serves: class 0 first, then 1, 2 and 3, each against its own credit (R46). -/
def egressPick (pt : Port) (coming : Bool) : Option EMsg :=
  [(0 : Fin 4), 1, 2, 3].findSome? fun c =>
    if Quad.get pt.credit c = 0 then none
    else match classNext pt c with
      | some m => if headBlocked pt coming m then none else some m
      | none => none

/-- An egress cycle in which nothing is driven: every output is low. -/
def driveIdle (ch : Chip) (p : Nat) : Chip := modPort ch p fun pt => { pt with pe := {}, lastHead := false }

/-- One egress cycle of a port. -/
def egressCycle (ch : Chip) (p : Nat) : Chip :=
  let pt := getPort ch p
  match pt.recs with
  | r :: _ =>
    let head := r.zf ≤ r.zsent || r.zsent = 0
    if Quad.get pt.credit r.cls = 0 || (pt.lastHead && head) then driveIdle ch p else driveRecord ch p r
  | [] =>
    match egressPick pt (headComing ch p) with
    | some m => driveMsg ch p m
    | none => driveIdle ch p

/-- EGRESS_FLIT_DRIVE. A port that cannot drive holds its outputs low. -/
def execEgressFlitDrive (p : Fin 64) (s : State) : Out :=
  onChip s fun ch => if egressOn ch (getPort ch p) then egressCycle ch p else driveIdle ch p

/-! ### EGRESS_CREDIT, PORT_STALL_EVENT, PORT_STALL_FENCE (R46, R47) -/

/-- EGRESS_CREDIT. A disabled port ignores the pulse (R55); one beyond 4,095 is ignored and is a port fault. -/
def execEgressCredit (p : Fin 64) (c : Fin 4) (s : State) : Out :=
  onChip s fun ch =>
    let ch := modPort ch p fun pt => { pt with peClk := true }
    let pt := getPort ch p
    if pt.st = .disabled then ch
    else
      let ch := modPort ch p fun pt =>
        { pt with stall := Quad.set pt.stall c 0, stalled := Quad.set pt.stalled c false }
      if 4095 ≤ Quad.get pt.credit c then
        raise (modPort ch p fun pt => { pt with ecredit := satInc 16 pt.ecredit }) (srcPort p) fkPortCredit (ctxPlain 0)
      else modPort ch p fun pt => { pt with credit := Quad.set pt.credit c (Quad.get pt.credit c + 1) }

/-- PORT_STALL_EVENT, due when the stall timer has reached 20 µs. -/
def execPortStallEvent (p : Fin 64) (c : Fin 4) (s : State) : Out :=
  onChip s fun ch =>
    let pt := getPort ch p
    if pt.st = .enabled && 20 * usCycles ch ≤ Quad.get pt.stall c && !Quad.get pt.stalled c then
      event (modPort ch p fun pt => { pt with stalled := Quad.set pt.stalled c true }) 0x0101 0 none [(p, 6), (c.val, 2)]
    else ch

/-- PORT_STALL_FENCE, due when the stall timer has reached 200 µs. -/
def execPortStallFence (p : Fin 64) (c : Fin 4) (s : State) : Out :=
  onChip s fun ch =>
    let pt := getPort ch p
    if pt.st = .enabled && 200 * usCycles ch ≤ Quad.get pt.stall c then
      let ch := raise ch (srcPort p) fkPortStall (ctxPlain 0)
      changeUnit (fencePort ch p 2 fun _ => 0x43) (srcPort p) .fenced 5
    else ch

/-! ### CLOCK_LOSS (R18) -/

/-- CLOCK_LOSS: Rind reports the clock absent, under the ID of the port. -/
def execClockLoss (clk : PortClock) (s : State) : Out :=
  onChip s fun ch =>
    match clk with
    | .ingress p =>
      if (getPort ch p).piClk then
        raise (modPort ch p fun pt => { pt with piClk := false }) (srcPort p) fkClockLoss (ctxPlain 0)
      else ch
    | .egress p =>
      if (getPort ch p).peClk then
        raise (modPort ch p fun pt => { pt with peClk := false }) (srcPort p) fkClockLoss (ctxPlain 0)
      else ch
    | .line p =>
      if (getLine ch p).clk then
        raise (modLine ch p fun l => { l with clk := false }) (srcLine p) fkClockLoss (ctxPlain 0)
      else ch

end Sys2Proof.Machine
end

