-- ==== Sys2Proof/Machine/GroupCmds.lean ====
section
/-! DEFINITION. The group commands, group 0x08 (13_commands_data.md, R305 to R309; 20_groups.md). -/

namespace Sys2Proof.Machine

/-! ### XN_GROUP_STAGE and XN_GROUP_QUERY -/

/-- XN_GROUP_STAGE. -/
def execXnGroupStage (mb : Fin 1028) (s : State) : Out :=
  onState s fun s => runCommand s mb (isOp 0x0801) [(0x10, 1), (0x12, 16)] fun s c =>
    if cb c.cmd 0x12 2 != 128 || !blobWords c.blob 128 then (s, .reply (failAt 1 stBadField))
    else
      let bs := some (blobBytes c.blob 128)
      let fw := s.chip.fw
      let fw := if cb c.cmd 0x10 1 = 0 then { fw with part0 := bs } else { fw with part1 := bs }
      ({ s with chip := { s.chip with fw := fw } }, .reply {})

/-- EPOCH of a GTK position. -/
def gtkEpoch (g : Option Gtk) : Nat := match g with | some k => k.epoch | none => 0xFFFFFFFF

/-- The group digest (R454). -/
def groupDigest (d : List Byte) : List Byte := sha384 (d.take 0x60)

/-- RESULT of XN_GROUP_QUERY (Table 13.9). -/
def groupView (ch : Chip) : Nat :=
  let f := ch.fw
  let d := f.desc
  let member :=
    if f.group = 0 then 0
    else
      rb 0x12 2 (gdSlot d) ||| rb 0x14 4 (gdEpoch d) ||| rb 0x18 4 (if f.hasPrev then gdEpoch d - 1 else 0) |||
        rb 0x1C 2 (gdMembers d) ||| rb 0x28 8 (ofLE ((groupDigest d).take 8))
  rb 0x10 1 f.group ||| rb 0x11 1 f.matchBits ||| member ||| rb 0x20 4 (gtkEpoch ch.keys.gtkCur) |||
    rb 0x24 4 (gtkEpoch ch.keys.gtkPrev)

/-- XN_GROUP_QUERY. -/
def execXnGroupQuery (mb : Fin 1028) (s : State) : Out :=
  onState s fun s => runCommand s mb (isOp 0x0803) [] fun s _ => (s, .reply (okWith (groupView s.chip)))

/-! ### XN_GROUP_COMMIT and XN_GROUP_LEAVE -/

/-- Checks 2 to 7 of XN_GROUP_COMMIT, with the job of R249. -/
def groupCommitFail (ch : Chip) (mb : Nat) (d : List Byte) : Option Reply :=
  let f := ch.fw
  let member := f.group != 0
  if !gdVerifies ch d then some (failAt 2 stAuthFail)
  else if (d.drop 0x60).take 16 != deviceIdBytes || gdMembers d ≤ gdSlot d then some (failAt 3 stBadField)
  else if member && (gdEpoch d < gdEpoch f.desc || (gdEpoch d = gdEpoch f.desc && d != f.desc)) then
    some (failAt 4 stBadField)
  else if ch.damson.slot != gdSlot d && ch.damson.exhausted then some (failAt 5 stDenied)
  else if ch.damson.change.isSome then some (failAt 6 stBusy)
  else if !jobFree ch mb then some { status := stNoResource, detail := 0x7D }
  else flashRefusal ch

/-- RESULT of a commit that needs no slot change. -/
def groupCommitResult (ch : Chip) (d : List Byte) : Nat :=
  rb 0x10 4 (gdEpoch d) ||| rb 0x14 2 (gdSlot d) ||| rb 0x16 1 ch.fw.matchBits ||| rb 0x18 6 (ch.damson.highest.getD 0)

/-- XN_GROUP_COMMIT: the command waits for its group record. An identical descriptor only ends the staging. -/
def execXnGroupCommit (mb : Fin 1028) (s : State) : Out :=
  onState s fun s => runCommand s mb (isOp 0x0802) [] fun s _ =>
    let ch := s.chip
    match ch.fw.part0, ch.fw.part1 with
    | some a, some b =>
      let d := a ++ b
      (match groupCommitFail ch mb d with
      | some r => (s, .reply r)
      | none =>
        if ch.fw.group != 0 && d = ch.fw.desc then
          ({ s with chip := { ch with fw := { ch.fw with part0 := none, part1 := none } } },
            .reply (okWith (groupCommitResult ch d)))
        else ({ s with chip := writeGroup ch 1 (gdEpoch d) d }, .wait (.group d false (nowUs ch + 20000))))
    | _, _ => (s, .reply (failAt 1 stBadField))

/-- The own checks of XN_GROUP_LEAVE, with the job of R249. -/
def leaveFail (ch : Chip) (mb : Nat) : Option Reply :=
  if ch.fw.group = 0 then some (failAt 1 stDenied)
  else if ch.damson.change.isSome then some (failAt 2 stBusy)
  else if !jobFree ch mb then some { status := stNoResource, detail := 0x7D }
  else flashRefusal ch

/-- XN_GROUP_LEAVE: the state is NONE at once, and the command waits for its group record. -/
def execXnGroupLeave (mb : Fin 1028) (s : State) : Out :=
  onState s fun s => runCommand s mb (isOp 0x0805) [] fun s _ =>
    match leaveFail s.chip mb with
    | some r => (s, .reply r)
    | none =>
      let ch := { s.chip with fw := { s.chip.fw with group := 0, desc := [], matchBits := 0, hasPrev := false } }
      ({ s with chip := writeGroup ch 2 0 [] }, .wait (.group [] true (nowUs ch + 5000)))

/-! ### XN_KEK_EXPORT (R308) -/

/-- The current GTK when its epoch is the committed one (check 3). -/
def exportGtk (ch : Chip) : Option (List Byte) :=
  match ch.keys.gtkCur with
  | some g => if g.epoch = gdEpoch ch.fw.desc then memKey ch g.record else none
  | none => none

/-- XN_KEK_EXPORT: the blob stands in BLOB_OUT of the owner page. -/
def execXnKekExport (mb : Fin 1028) (s : State) : Out :=
  onState s fun s => runCommand s mb (isOp 0x0804) [(0x10, 8), (0x12, 16)] fun s c =>
    let ch := s.chip
    let kekslot := cb c.cmd 0x10 1
    let t := cb c.cmd 0x12 2
    let idx := 16 * t + kekslot
    if 15 < kekslot || 1023 < t then (s, .reply (failAt 1 stBadField))
    else if ch.fw.group != 2 then (s, .reply (failAt 2 stGroupMismatch))
    else
      match exportGtk ch with
      | none => (s, .reply (failAt 3 stKeyEmpty))
      | some gtk =>
        if kekReserved ch idx then (s, .reply (failAt 4 stDualPending))
        else
          match kekKey ch idx with
          | none => (s, .reply (failAt 5 stKeyEmpty))
          | some kek =>
            let ch := modMb ch c.mb fun m => { m with blobOut := some (c.slot, dkkBlob gtk t kekslot kek) }
            ({ s with chip := ch },
              .reply (okWith (rb 0x10 2 56 ||| rb 0x14 4 (gdEpoch ch.fw.desc) ||| rb 0x18 3 (kcvNum kek))))

end Sys2Proof.Machine
end

