-- ==== Sys2Proof/Machine/Mailbox.lean ====
section
/-! DEFINITION. What Quince does beside the commands of the set (11_mailboxes.md, 14_registers.md): a job's end (R249), the
commit of the staged registers (R330), and the answer to an undefined opcode (R246). -/

namespace Sys2Proof.Machine

/-! ### JOB_END -/

/-- What a job's work has left to be stored. -/
def dueResult (ch : Chip) (h : BitVec 32) : Option (Nat × Nat × Nat) :=
  ((getMb ch (handleMb h)).jobs.find? fun j => j.handle = h && isRunning j).bind (·.due)

/-- JOB_END, due when the work of the job has ended; during a handover it waits for ready (R449). -/
def execJobEnd (handle : BitVec 32) (s : State) : Out :=
  onChip s fun ch =>
    match dueResult ch handle with
    | some r => if ch.fw.handover then ch else storeJob ch handle r
    | none => ch

/-! ### CFG_COMMIT_APPLY -/

/-- The configuration with every dirty staged register applied. -/
def stagedCfg (q : Quince) (c : Cfg) : Cfg :=
  q.dirty.foldl (fun c off => setCfgReg c off (Tbl.get (stagedReset off) q.staged off)) c

/-- The result of a commit (R330). -/
def commitVerdict (ch : Chip) : Nat :=
  if ch.fw.rom || ch.fw.handover then stBusy
  else if halted ch then stHalted
  else if ch.quince.dirty.isEmpty then stOk
  else if ch.live2 then stGenBusy
  else stOk

/-- The commit ends: COMMIT_BUSY clears and RESULT is set. -/
def commitEnd (ch : Chip) : Chip :=
  let r := commitVerdict ch
  let ch := if r = stOk && !ch.quince.dirty.isEmpty then
      discardStaged (checkOvercommit (newGeneration ch (stagedCfg ch.quince))) else ch
  { ch with quince := { ch.quince with commitBusy := false, commitResult := r } }

/-- The write that waited for the commit lands in the staged copy. -/
def landStaged (s : State) : State :=
  match s.chip.ctl.stall with
  | some (.staged off v) => endStall s fun s => { s with chip := endWrite s.chip (writeStaged s.chip off v) }
  | _ => s

/-- CFG_COMMIT_APPLY, due in the owner mailbox's turn while a commit is requested. -/
def execCfgCommitApply (s : State) : Out :=
  onState s fun s =>
    if !serving s.chip || !s.chip.quince.commitBusy || nextMailbox s.chip != some 1024 then s
    else landStaged { s with chip := commitEnd (takeTurn s.chip 1024) }

/-! ### UNDEFINED_OPCODE -/

/-- UNDEFINED_OPCODE: check 8 of Table 11.7 answers, unless an earlier check does. -/
def execUndefinedOpcode (mb : Fin 1028) (s : State) : Out :=
  onState s fun s => runCommand s mb (fun op => (opInfo op).isNone) [] fun s _ => (s, .reply (failAt 0 stBadOpcode))

end Sys2Proof.Machine
end

