-- ==== Sys2Proof/Machine/OfficerCmds.lean ====
section
/-! DEFINITION. Dual control and officer enrolment: group 0x0C (12_commands_keys.md, R286 to R291; R127 to R131 of
05_keys.md, R251 of 11_mailboxes.md, R457 of 20_groups.md, R390 of 17_boundary.md). -/

namespace Sys2Proof.Machine

/-- DUAL_WINDOW in microseconds (R128). -/
def dualWindowUs (ch : Chip) : Nat := 60000000 * ch.fw.dualWindow

/-! ### XN_DUAL_OPEN (R286) -/

/-- Check 1: the target fields of other purposes are zero. -/
def targetFields (c : CommandWord) : Bool :=
  let p := cb c 0x10 1
  1 ≤ p && p ≤ 4 && (p = 1 || (cb c 0x12 2 = 0 && cb c 0x14 1 = 0)) && (p = 2 || cb c 0x18 4 = 0) && (p = 4 || cb c 0x1C 2 = 0)

/-- EPOCH is acceptable for a GTK load (R457). -/
def epochOk (ch : Chip) (x : Nat) : Bool :=
  x != 0xFFFFFFFF && (match ch.keys.gtkCur with | some g => g.epoch < x | none => true) &&
    (ch.fw.group = 0 || x ≤ gdEpoch ch.fw.desc + 1)

/-- SOURCE names a Rind monitor that is not disabled. -/
def fuseTarget (s : State) (src : Nat) : Bool := (srcRind src).isSome && !rindDisabled s src

/-- The own checks of XN_DUAL_OPEN. -/
def openFail (s : State) (c : CommandWord) : Option Reply :=
  let ch := s.chip
  let p := cb c 0x10 1
  let idx := 16 * cb c 0x12 2 + cb c 0x14 1
  if !targetFields c then some (failAt 1 stBadField)
  else if sessionOpen ch.keys.session || ch.fw.activate.isSome then some (failAt 2 stBusy)
  else if (p = 1 || p = 2) && (ch.keys.vk.isNone || ch.keys.tk.isNone) then some (failAt 3 stDenied)
  else if p = 1 && (cb c 0x12 2 ≥ 1024 || (getTenant ch (cb c 0x12 2)).st != .enabled || 15 < cb c 0x14 1 || kekActive ch idx) then
    some (failAt 4 stDenied)
  else if p = 2 && !epochOk ch (cb c 0x18 4) then some (failAt 5 stBadField)
  else if p = 4 && !fuseTarget s (cb c 0x1C 2) then some (failAt 6 stBadField)
  else none

/-- The session that an open starts. -/
def newSession (ch : Chip) (c : CommandWord) : Session :=
  let n := ch.keys.session.num + 1
  { num := if n = 65536 then 1 else n, purpose := cb c 0x10 1, tenant := cb c 0x12 2, kekslot := cb c 0x14 1
    epoch := cb c 0x18 4, source := cb c 0x1C 2, expiry := nowUs ch + dualWindowUs ch, state := 1 }

/-- XN_DUAL_OPEN. -/
def execXnDualOpen (mb : Fin 1028) (s : State) : Out :=
  onState s fun s => runCommand s mb (isOp 0x0C01) [(0x10, 8), (0x12, 24), (0x18, 48)] fun s c =>
    match openFail s c.cmd with
    | some r => (s, .reply r)
    | none =>
      let n := newSession s.chip c.cmd
      let ch := { s.chip with keys := { s.chip.keys with session := n } }
      ({ s with chip := ch }, .reply (okWith (rb 0x10 2 n.num ||| rb 0x12 1 n.purpose ||| rb 0x18 8 n.expiry)))

/-! ### XN_SHARE_COMMIT (R287) -/

/-- The state of a session after the first commit by an officer. -/
def committedBy (o : Nat) : Nat := 2 + o

/-- The share in an officer's KSHARE words. -/
def shareOf (ch : Chip) (mb : Nat) : List Byte := keyDataBytes (getMb ch mb) 8

/-- The key loader takes and clears the KSHARE words (R129). -/
def takeShare (ch : Chip) (mb : Nat) : Chip := modMb ch mb fun m => { m with keyData := [] }

/-- RESULT of a share commit. -/
def commitResult (n : Session) (sstate : Nat) (share key : List Byte) : Nat :=
  rb 0x10 2 n.num ||| rb 0x12 1 sstate ||| (if share.isEmpty then 0 else rb 0x14 3 (ofLE (scv share))) |||
    (if key.isEmpty then 0 else rb 0x18 3 (kcvNum key))

/-- Purposes with shares. -/
def sharePurpose (n : Session) : Bool := n.purpose = 1 || n.purpose = 2

/-- The session named has expired (R128). -/
def commitLate (ch : Chip) (num : Nat) : Bool :=
  let n := ch.keys.session
  num != 0 && n.num = num && n.state = 5 && n.cause = 1

/-- Checks 1 to 5. The expiry of the session has been tested, so an expired session has ended. -/
def commitFail (ch : Chip) (mb o : Nat) (c : CommandWord) : Option Reply :=
  let n := ch.keys.session
  if commitLate ch (cb c 0x10 2) then some (failAt 2 stTimeout)
  else if !sessionOpen n || n.num != cb c 0x10 2 then some (failAt 1 stBadField)
  else if n.state = committedBy o then some (failAt 3 stDenied)
  else if sharePurpose n && !((List.range 8).all fun i => wordWritten (getMb ch mb) i) then some (failAt 4 stBadField)
  else if sharePurpose n && (shareOf ch mb).all (· = 0) then some (failAt 5 stBadField)
  else none

/-- The first commit (R130). -/
def firstCommit (ch : Chip) (mb o : Nat) : Chip × Reply :=
  let n := ch.keys.session
  let share := if sharePurpose n then shareOf ch mb else []
  let ch := if sharePurpose n then takeShare ch mb else ch
  let n := { n with state := committedBy o, share := share }
  ({ ch with keys := { ch.keys with session := n } }, okWith (commitResult n 1 share []))

/-- The record that a GTK load writes first, for the previous position (R457 step 1). -/
def prevGtkRecord (ch : Chip) : VaultReq :=
  match ch.keys.gtkCur with
  | some g => keyRecord .command 2 1 (dgkBlob (ch.keys.tk.getD []) g.epoch ((memKey ch g.record).getD []))
  | none => eraseRecord .command 2 1

/-- The second commit of a share purpose (R130): the words are taken, the root key derived and both shares erased, and its
vault record requested. -/
def secondShare (ch : Chip) (mb : Nat) : Chip × Act :=
  let n := ch.keys.session
  let share := shareOf ch mb
  let z := xorBytes n.share share
  let ch := takeShare ch mb
  let ch := { ch with keys := { ch.keys with session := { n with share := [] } } }
  if z.all (· = 0) then (endSession ch 4, .reply (failAt 6 stBadField))
  else
    match vaultRefusal ch with
    | some r => (endSession ch (if r.status = stBusy then 6 else 5), .reply r)
    | none =>
      let key := deriveRootKey z n.purpose n.tenant n.kekslot n.epoch
      let record := memRecord (ch.keys.ck.getD []) key
      let result := commitResult n 2 share key
      if n.purpose = 1 then
        let idx := 16 * n.tenant + n.kekslot
        let blob := dkkBlob (ch.keys.vk.getD []) n.tenant n.kekslot key
        (vaultWrite ch (keyRecord .command 1 idx blob), .wait (.dualKek idx record result (kcv key)))
      else
        let blob := dgkBlob (ch.keys.tk.getD []) n.epoch key
        (vaultWrite ch (prevGtkRecord ch), .wait (.dualGtk true n.epoch blob record result (kcv key)))

/-- The second commit of a log clear: the job of R418 starts. A clear that runs already is abandoned for it (log entry
25). -/
def secondClear (s : State) (mb : Nat) : State × Act :=
  let ch := s.chip
  let n := ch.keys.session
  if !jobFree ch mb then (s, .reply { status := stNoResource, detail := 0x7D })
  else
    let ch := match ch.fw.clearJob with
      | some h => jobDue { ch with fw := { ch.fw with clearJob := none } } h stAborted 0 0
      | none => ch
    let job := startJob ch mb 0x0C02
    let ch := completeSession job.2 []
    let ch := { ch with
      fw := { ch.fw with clearJob := some job.1 }
      recorder := { ch.recorder with clearing := some (n.num, 1), paused := false } }
    (clearStep { s with chip := recHand ch },
      .reply { status := stInProgress, job := job.1.toNat, result := commitResult n 2 [] [] })

/-- DETAIL of a TYPE 0x03 record (Table 17.5). -/
def fuseDetail (ch : Chip) (n : Session) : BitVec 128 :=
  BitVec.ofNat 128 (putAt 0 2 n.num ||| putAt 2 3 (kcvNum ch.keys.offA.key) ||| putAt 5 3 (kcvNum ch.keys.offB.key))

/-- The second commit of a fuse-disable (R390): `ok` is whether the fuse reads back as blown. -/
def secondFuse (s : State) (ok : Bool) : State × Act :=
  let ch := s.chip
  let n := ch.keys.session
  let i := (srcRind n.source).getD 0
  if ok then
    let bit : BitVec 64 := 1#64 <<< i
    let s := { s with
      otp := { s.otp with disabled := s.otp.disabled ||| bit }
      aon := if s.aon.present then { s.aon with fused := s.aon.fused ||| bit } else s.aon }
    let s := takeEvidence s (evidenceNow s 3 0 n.source 0 (fuseDetail ch n))
    ({ s with chip := completeSession s.chip [] }, .reply (okWith (commitResult n 2 [] [])))
  else
    let cause := (Config.freeWord ch.free).toNat % 256
    let ch := raise (endSession { ch with free := ch.free + 1 } cause) 0x4000 fkOtp 0
    ({ s with chip := ch }, .reply { status := stDenied, detail := 0x88 })

/-- XN_SHARE_COMMIT. -/
def execXnShareCommit (mb : Fin 1028) (ok : Bool) (s : State) : Out :=
  onState s fun s => runCommand s mb (isOp 0x0C02) [(0x10, 16)] fun s c =>
    let o := (officerOf mb).getD 0
    match commitFail s.chip mb o c.cmd with
    | some r => (s, .reply r)
    | none =>
      let n := s.chip.keys.session
      if n.state = 1 then
        let r := firstCommit s.chip mb o
        ({ s with chip := r.1 }, .reply r.2)
      else if sharePurpose n then
        let r := secondShare s.chip mb
        let s := { s with chip := r.1 }
        match r.2 with
        | .wait (.dualKek idx ..) => (noteSource s idx 1, r.2)
        | a => (s, a)
      else if n.purpose = 3 then secondClear s mb
      else secondFuse s ok

/-! ### XN_DUAL_CANCEL and XN_DUAL_STATUS (R288, R289) -/

/-- XN_DUAL_CANCEL. -/
def execXnDualCancel (mb : Fin 1028) (s : State) : Out :=
  onState s fun s => runCommand s mb (isOp 0x0C03) [(0x10, 16)] fun s c =>
    let n := s.chip.keys.session
    if !sessionOpen n || n.num != cb c.cmd 0x10 2 then (s, .reply (failAt 1 stBadField))
    else
      let cause := 2 + (officerOf mb).getD 0
      ({ s with chip := endSession s.chip cause }, .reply (okWith (rb 0x10 2 n.num)))

/-- RESULT of XN_DUAL_STATUS (Table 12.17). -/
def sessionResult (n : Session) : Nat :=
  rb 0x10 2 n.num ||| rb 0x12 1 n.purpose ||| rb 0x13 1 n.state ||| (if n.state = 5 then rb 0x14 1 n.cause else 0) |||
    rb 0x18 8 n.expiry ||| (if n.state = 4 then rb 0x20 3 (ofLE n.kcv) else 0)

/-- XN_DUAL_STATUS. -/
def execXnDualStatus (mb : Fin 1028) (s : State) : Out :=
  onState s fun s => runCommand s mb (isOp 0x0C04) [] fun s _ =>
    (s, .reply (okWith (sessionResult s.chip.keys.session)))

/-! ### Enrolment (R290, R291) -/

/-- XN_ENROL_ALLOW. -/
def execXnEnrolAllow (mb : Fin 1028) (s : State) : Out :=
  onState s fun s => runCommand s mb (isOp 0x0C06) [(0x10, 8)] fun s c =>
    let ch := s.chip
    let o := cb c.cmd 0x10 1
    if 1 < o then (s, .reply (failAt 1 stBadField))
    else if (getOfficer ch o).enrolled then (s, .reply (failAt 2 stDenied))
    else
      let e := nowUs ch + dualWindowUs ch
      ({ s with chip := setOfficer ch o { getOfficer ch o with allowUntil := some e } },
        .reply (okWith (rb 0x10 1 o ||| rb 0x18 8 e)))

/-- An enrolment allowance is in force. -/
def allowed (ch : Chip) (o : Nat) : Bool :=
  match (getOfficer ch o).allowUntil with
  | some e => nowUs ch < e
  | none => false

/-- Check 2 of XN_OFFICER_ENROL. -/
def enrolWords (ch : Chip) (mb o : Nat) (c : CommandWord) : Bool :=
  ((List.range 8).all fun i => wordWritten (getMb ch mb) i = decide (i < 4)) &&
    !(keyDataBytes (getMb ch mb) 4).all (· = 0) && ((getOfficer ch o).enrolled || cb c 0x10 16 = 0)

/-- PROOF verifies under the new key over the challenge consumed. -/
def proofOk (c : Call) (key : List Byte) : Bool :=
  match c.chal with
  | some (chal, _) => decide (cb c.cmd 0x10 16 = ofLE (cmac key chal))
  | none => false

/-- Check 3 of XN_OFFICER_ENROL, with the device secret that R135 asks for. Its failure counts on from those before the
command, as one of check 6 does (R255, R291). -/
def enrolFail (ch : Chip) (o : Nat) (c : Call) (key : List Byte) : Option Reply :=
  if ch.keys.tk.isNone then some (failAt 3 stDenied)
  else if (getOfficer ch o).enrolled then (if proofOk c key then none else some (failAt 3 stAuthFail))
  else if allowed ch o then none
  else some (failAt 3 stDenied)

/-- XN_OFFICER_ENROL: the command waits for its vault record. -/
def execXnOfficerEnrol (mb : Fin 1028) (s : State) : Out :=
  onState s fun s => runCommand s mb (isOp 0x0C05) [(0x10, 128)] fun s c =>
    let ch := s.chip
    let o := (officerOf mb).getD 0
    let key := keyDataBytes (getMb ch mb) 4
    if sessionOpen ch.keys.session then (s, .reply (failAt 1 stBusy))
    else if !enrolWords ch mb o c.cmd then (s, .reply (failAt 2 stBadField))
    else
      match enrolFail ch o c key with
      | some r => ({ s with chip := officerFail (setOfficer ch o { getOfficer ch o with fails := c.fails }) o c.ccount }, .reply r)
      | none =>
        match vaultRefusal ch with
        | some r => (s, .reply r)
        | none =>
          let ch := vaultWrite ch (keyRecord .command 3 o (dokBlob (ch.keys.tk.getD []) o key))
          ({ s with chip := ch }, .wait (.enrol o (rb 0x10 3 (kcvNum key) ||| rb 0x13 1 o)))

end Sys2Proof.Machine
end

