-- ==== Sys2Proof/Machine/RangeCmds.lean ====
section
/-! DEFINITION. The commands of Bramble's live ranges, group 0x06 (13_commands_data.md, R300 and R301; R203, R204 and R212 of
09_change.md). XN_REGION_REKEY stands with the regions. -/

namespace Sys2Proof.Machine

/-! ### XN_RANGE_ARM (R300) -/

/-- Row 2 of Table 9.2 for one slot, as checks 19 to 21 of Table 2.9. A slot that is not ACTIVE counts as empty. -/
def armSlotFail (ch : Chip) (t k kgen : Nat) : Option Nat :=
  let d := slotDesc ch k
  if !inSlotQuota (tenantCfg ch.cfg t) k || (dState d != ssEmpty && dTenant d != t) then some stKeyOwner
  else if dState d != ssActive then some stKeyEmpty
  else if dKgen d != kgen then some stKeyStale
  else none

/-- Rows 3 and 4: the two descriptors of a range. -/
def armDescsOk (o n : BitVec 256) : Bool :=
  isXts (dMode o) && dMode o = dMode n && dUsize o = dUsize n && unitBytes (dUsize o) != 0

def noCodingOps (d : BitVec 256) : Bool := !(dOps d).testBit (opsBit opEncode) && !(dOps d).testBit (opsBit opDecode)

/-- Ranges that exist. -/
def rangeCount (ch : Chip) : Nat := (ch.ranges.filter fun e => e.2.isSome).length

/-- The rows of Table 9.2, in order. -/
def armFail (ch : Chip) (t : Nat) (c : CommandWord) : Option Reply :=
  let o := cb c 0x10 4
  let n := cb c 0x18 4
  let od := slotDesc ch o
  let nd := slotDesc ch n
  if (tenantCfg ch.cfg t).rangeQuota ≤ (rangesOf ch t).length || 4096 ≤ rangeCount ch then some (failAt 1 stNoResource)
  else
    match (armSlotFail ch t o (cb c 0x14 1)).orElse fun _ => armSlotFail ch t n (cb c 0x1C 1) with
    | some st => some (failAt 2 st)
    | none =>
      if o = n || !armDescsOk od nd || cb c 0x28 8 < cb c 0x20 8 then some (failAt 3 stBadField)
      else if !noCodingOps od || !noCodingOps nd then some (failAt 4 stBadField)
      else if rangeNames ch o || rangeNames ch n then some (failAt 5 stBusy)
      else none

/-- The lowest free job number. -/
def freeRange (ch : Chip) : Nat := ((List.range 4096).find? fun j => (getRange ch j).isNone).getD 0

/-- XN_RANGE_ARM. -/
def execXnRangeArm (mb : Fin 1028) (s : State) : Out :=
  onState s fun s => runCommand s mb (isOp 0x0601)
      [(0x10, 20), (0x14, 8), (0x18, 20), (0x1C, 8), (0x20, 64), (0x28, 64)] fun s c =>
    let ch := s.chip
    match armFail ch mb c.cmd with
    | some r => (s, .reply r)
    | none =>
      let lo := cb c.cmd 0x20 8
      let r : Range :=
        { tenant := mb, epoch := (getTenant ch mb).epoch, o := cb c.cmd 0x10 4, ogen := cb c.cmd 0x14 1
          n := cb c.cmd 0x18 4, ngen := cb c.cmd 0x1C 1, lo := lo, hi := cb c.cmd 0x28 8, b := lo
          st := .armed, fseq := 0, win := none, pausing := false }
      let j := freeRange ch
      ({ s with chip := setRange ch j (some r) }, .reply (okWith (rb 0x10 2 j ||| rb 0x12 1 1)))

/-! ### The commands of Table 13.5 -/

/-- The range of a tenant that a command names in JOB. -/
def ownRange (ch : Chip) (t : Nat) (c : CommandWord) : Option (Nat × Range) :=
  (rangesOf ch t).find? fun x => x.1 = cb c 0x10 2

/-- What a command of Table 13.5 does to a range: a refusal, or the chip after it. -/
def denied : Except Reply Chip := .error (failAt 2 stDenied)

def startAct (ch : Chip) (j : Nat) (r : Range) : Except Reply Chip :=
  match r.st with
  | .armed => if rangeStale ch r then .error (failAt 3 stKeyStale) else .ok (startRange ch j r)
  | .opened => .ok ch
  | .window => .ok ch
  | .paused => denied
  | .stopped => denied
  | .frozen => denied
  | .done => denied

def pauseAct (ch : Chip) (j : Nat) (r : Range) : Except Reply Chip :=
  match r.st with
  | .armed => denied
  | .opened => .ok (setRange ch j (some { r with st := .paused }))
  | .window => .ok (setRange ch j (some { r with pausing := true }))
  | .paused => .ok ch
  | .stopped => .ok ch
  | .frozen => denied
  | .done => denied

/-- A resumed range with B past HI ends as R211 says. -/
def resumeAct (ch : Chip) (j : Nat) (r : Range) : Except Reply Chip :=
  match r.st with
  | .armed => denied
  | .opened => denied
  | .window => .ok (setRange ch j (some { r with pausing := false }))
  | .paused => .ok (finishRange ch j { r with st := .opened })
  | .stopped => .ok (finishRange ch j { r with st := .opened })
  | .frozen => .ok (finishRange ch j { r with st := .opened })
  | .done => denied

/-- The range is FROZEN, with B as WRITTEN decides (R212). -/
def freezeRange (ch : Chip) (j : Nat) (r : Range) (written : Bool) : Chip :=
  let b := match r.win with | some w => if written && w.outDone then w.e else r.b | none => r.b
  setRange (dropFetch ch j) j (some { r with st := .frozen, b := b, win := none, pausing := false })

def abortAct (ch : Chip) (j : Nat) (r : Range) (written : Bool) : Except Reply Chip :=
  match r.st with
  | .armed => .ok (setRange ch j none)
  | .opened => .ok (freezeRange ch j r written)
  | .window => .ok (freezeRange ch j r written)
  | .paused => .ok (freezeRange ch j r written)
  | .stopped => .ok (freezeRange ch j r written)
  | .frozen => denied
  | .done => denied

/-- Run one of the commands of Table 13.5. -/
def rangeCommand (act : Chip → Nat → Range → CommandWord → Except Reply Chip) (t : Nat) (s : State) (c : Call) : State × Act :=
  match ownRange s.chip t c.cmd with
  | none => (s, .reply (failAt 1 stBadField))
  | some (j, r) =>
    match act s.chip j r c.cmd with
    | .error f => (s, .reply f)
    | .ok ch => ({ s with chip := ch }, .reply {})

/-- XN_RANGE_START. -/
def execXnRangeStart (mb : Fin 1028) (s : State) : Out :=
  onState s fun s => runCommand s mb (isOp 0x0602) [(0x10, 16)] (rangeCommand (fun ch j r _ => startAct ch j r) mb)

/-- XN_RANGE_PAUSE. -/
def execXnRangePause (mb : Fin 1028) (s : State) : Out :=
  onState s fun s => runCommand s mb (isOp 0x0603) [(0x10, 16)] (rangeCommand (fun ch j r _ => pauseAct ch j r) mb)

/-- XN_RANGE_RESUME. -/
def execXnRangeResume (mb : Fin 1028) (s : State) : Out :=
  onState s fun s => runCommand s mb (isOp 0x0604) [(0x10, 16)] (rangeCommand (fun ch j r _ => resumeAct ch j r) mb)

/-- XN_RANGE_ABORT. -/
def execXnRangeAbort (mb : Fin 1028) (s : State) : Out :=
  onState s fun s => runCommand s mb (isOp 0x0605) [(0x10, 16), (0x12, 1)]
    (rangeCommand (fun ch j r c => abortAct ch j r ((cb c 0x12 1).testBit 0)) mb)

/-! ### XN_RANGE_QUERY (Table 13.6) -/

/-- STATE of a range. -/
def rangeCode (st : RangeState) : Nat :=
  match st with
  | .armed => 1
  | .opened => 2
  | .window => 3
  | .paused => 4
  | .stopped => 5
  | .frozen => 6
  | .done => 7

/-- FSEQ of the window open, or of the next. -/
def rangeFseq (r : Range) : Nat :=
  match r.win with
  | some w => if w.isOpen then w.fseq else r.fseq
  | none => r.fseq

/-- RESULT of XN_RANGE_QUERY. -/
def rangeView (j : Nat) (r : Range) : Nat :=
  let out := match r.win with | some w => w.outDone | none => false
  rb 0x10 2 j ||| rb 0x12 1 (rangeCode r.st) ||| rb 0x13 1 (bitIf r.pausing 0 ||| bitIf out 1) ||| rb 0x14 3 r.o |||
    rb 0x17 1 r.ogen ||| rb 0x18 3 r.n ||| rb 0x1B 1 r.ngen ||| rb 0x20 8 r.b ||| rb 0x28 8 r.hi |||
    rb 0x30 2 (rangeFseq r) ||| rb 0x38 8 r.lo

/-- XN_RANGE_QUERY. -/
def execXnRangeQuery (mb : Fin 1028) (s : State) : Out :=
  onState s fun s => runCommand s mb (isOp 0x0606) [(0x10, 16)] fun s c =>
    match ownRange s.chip mb c.cmd with
    | none => (s, .reply (failAt 1 stBadField))
    | some (j, r) => (s, .reply (okWith (rangeView j r)))

end Sys2Proof.Machine
end

