-- ==== Sys2Proof/Machine/RecordCmds.lean ====
section
/-! DEFINITION. The commands of the event recorder, group 0x09 (13_commands_data.md, R310 to R313; R407 of 18_records.md). -/

namespace Sys2Proof.Machine

/-- RESULT of XN_LOG_STATUS. -/
def logStatus (ch : Chip) : Nat :=
  let r := ch.recorder
  rb 0x10 4 r.wpos ||| rb 0x14 1 (unflushed ch).length ||| rb 0x15 1 (bitIf r.full 0 ||| bitIf r.clearing.isSome 1) |||
    rb 0x16 2 ch.boots ||| rb 0x18 8 (nowUs ch)

/-- XN_LOG_STATUS. -/
def execXnLogStatus (mb : Fin 1028) (s : State) : Out :=
  onState s fun s => runCommand s mb (isOp 0x0901) [] fun s _ => (s, .reply (okWith (logStatus s.chip)))

/-- The tenant that a Pip names (R407). -/
def pipTenant (p : Pip) : Option Nat :=
  if !(pipFlags p).testBit 0 then none
  else some (if pipCode p = 0x0100 then fld p 240 10 else fld p 128 10)

/-- A mailbox may read a Pip: the owner and the officers every one, a tenant its own. -/
def mayRead (mb : Nat) (p : Pip) : Bool := 1024 ≤ mb || pipTenant p = some mb

/-- The Pip that an index names. -/
def readPip (s : State) (mb i : Nat) : Reply :=
  match pipAt s i with
  | none => failAt 2 stBadField
  | some p => if mayRead mb p then okWith (rb 0x10 32 p.toNat) else failAt 1 stDenied

/-- The first of the next 4,096 Pips that the mailbox may read. -/
def searchPip (s : State) (mb i : Nat) : Reply :=
  let found := (List.range 4096).findSome? fun k =>
    match pipAt s (i + k) with
    | some p => if mayRead mb p then some (i + k, p) else none
    | none => none
  match found with
  | some (k, p) => okWith (rb 0x10 32 p.toNat ||| rb 0x30 4 k)
  | none => okWith (rb 0x30 4 (i + 4096))

/-- XN_PIP_READ. Mailboxes 1025 and 1026 are the officers'. -/
def execXnPipRead (mb : Fin 1028) (s : State) : Out :=
  onState s fun s => runCommand s mb (isOp 0x0902) [(0x10, 32), (0x14, 1)] fun s c =>
    let i := cb c.cmd 0x10 4
    let search := (cb c.cmd 0x14 1).testBit 0
    if !search then (s, .reply (readPip s mb i))
    else if (pipAt s i).isNone then (s, .reply (failAt 2 stBadField))
    else if mb.val = 1025 || mb.val = 1026 then (s, .reply (failAt 3 stBadField))
    else (s, .reply (searchPip s mb i))

/-- XN_TIME_MARK. -/
def execXnTimeMark (mb : Fin 1028) (s : State) : Out :=
  onState s fun s => runCommand s mb (isOp 0x0903) [(0x10, 64), (0x18, 8)] fun s c =>
    let ch := eventRaw s.chip 0x0006 0 0 (cb c.cmd 0x10 4) (cb c.cmd 0x14 4) (cb c.cmd 0x18 1) 0
    ({ s with chip := ch }, .reply {})

/-- Halves that hold a Pip not yet verified. -/
def halvesLeft (r : Recorder) : Nat := (if r.handed.isEmpty then 0 else 1) + (if r.filling.isEmpty then 0 else 1)

/-- XN_LOG_FLUSH: the command waits until every half that holds a Pip is verified. -/
def execXnLogFlush (mb : Fin 1028) (s : State) : Out :=
  onState s fun s => runCommand s mb (isOp 0x0904) [] fun s _ =>
    let r := s.chip.recorder
    if r.full || halvesLeft r = 0 then (s, .reply (okWith (rb 0x10 4 r.wpos)))
    else ({ s with chip := recHand s.chip }, .wait (.flush (halvesLeft r)))

end Sys2Proof.Machine
end

