-- ==== Sys2Proof/Machine/RegionCmds.lean ====
section
/-! DEFINITION. The region and line key commands of group 0x05 and XN_REGION_REKEY (13_commands_data.md, R293 to R299 and
R302; R179, R182 and R183 of 08_lines.md; R213 and R217 of 09_change.md). -/

namespace Sys2Proof.Machine

/-! ### Regions (R293 to R296) -/

/-- An entry lies in a tenant's line key quota (R182). -/
def inLineQuota (c : TenantCfg) (e : Nat) : Bool := c.lkeyBase ≤ e && e < c.lkeyBase + c.lkeySize

/-- A region entry that XN_REGION_SET writes, with REKEY, NKEY and JOB zero (Table 8.2). -/
def mkRegion (c : CommandWord) : BitVec 256 :=
  BitVec.ofNat 256 (field 216 40 (cb c 0x18 5) ||| field 176 40 (cb c 0x20 5) ||| field 118 12 (cb c 0x16 2) |||
    field 94 12 (cb c 0x28 2) ||| field 82 12 (cb c 0x2A 2) ||| field 72 10 (cb c 0x14 2) ||| field 70 2 1 |||
    field 69 1 (cb c 0x13 1))

/-- Check 1 of Table 13.2: fields in range. -/
def regionFieldsOk (c : CommandWord) : Bool :=
  cb c 0x10 2 < 4096 && cb c 0x12 1 = 1 && cb c 0x13 1 < 2 && cb c 0x14 2 < 1024 && cb c 0x16 2 < 4096 &&
    cb c 0x28 2 < 4096 && cb c 0x2A 2 < 4096 && cb c 0x18 5 ≤ cb c 0x20 5 &&
    (cb c 0x28 2 ||| cb c 0x2A 2) = cb c 0x2A 2

/-- The region entry after XN_REGION_SET: of an enabled region only AVAL, AMASK and KEEP change. -/
def regionAfter (old : BitVec 256) (c : CommandWord) : BitVec 256 :=
  if rgKind old = 0 then mkRegion c
  else setFld (setFld (setFld old 94 12 (cb c 0x28 2)) 82 12 (cb c 0x2A 2)) 69 1 (cb c 0x13 1)

/-- The range overlaps an enabled region other than its own (R179). -/
def regionMeets (cfg : Cfg) (r : Nat) (e : BitVec 256) : Bool :=
  cfg.regions.any fun x => x.1 != r && rgKind x.2 != 0 && rgBase x.2 ≤ rgLimit e && rgBase e ≤ rgLimit x.2

/-- Checks 2 to 8 of Table 13.2. -/
def regionSetFail (ch : Chip) (c : CommandWord) : Option Reply :=
  let r := cb c 0x10 2
  let old := regionOf ch.cfg r
  let new := regionAfter old c
  let on := rgKind old != 0
  let want := mkRegion c
  let key := lineDesc ch (rgCkey want)
  let regions := Tbl.set (0#256) ch.cfg.regions r new
  if rgKind old = 2 then some (failAt 2 stDenied)
  else if on && !(rgTenant old = rgTenant want && rgCkey old = rgCkey want && rgBase old = rgBase want &&
      rgLimit old = rgLimit want) then some (failAt 3 stDenied)
  else if on && rgRekey old && rgKeep old && !rgKeep new then some (failAt 4 stBusy)
  else if !on && regionMeets ch.cfg r want then some (failAt 5 stBadField)
  else if !on && !(ldState key = ssActive && inLineQuota (tenantCfg ch.cfg (rgTenant want)) (rgCkey want) && !ldBound key)
    then some (failAt 6 stDenied)
  else if 56 < (keepEntries { ch.cfg with regions := regions }).length then some (failAt 7 stNoResource)
  else if ch.live2 then some (failAt 8 stGenBusy)
  else none

/-- The effect of XN_REGION_SET: a new region sweeps from its first line, and its key is BOUND. -/
def applyRegion (ch : Chip) (c : CommandWord) : Chip :=
  let r := cb c 0x10 2
  let old := regionOf ch.cfg r
  let new := regionAfter old c
  let ch := writeRegion ch r new
  if rgKind old != 0 then ch
  else
    setSweep (setLineDesc ch (rgCkey new) (setFld (lineDesc ch (rgCkey new)) 102 1 1)) r { bound := rgFirst new, state := 1 }

/-- XN_REGION_SET. -/
def execXnRegionSet (mb : Fin 1028) (s : State) : Out :=
  onState s fun s => runCommand s mb (isOp 0x0501)
      [(0x10, 16), (0x12, 8), (0x13, 8), (0x14, 16), (0x16, 16), (0x18, 40), (0x20, 40), (0x28, 16), (0x2A, 16)] fun s c =>
    if !regionFieldsOk c.cmd then (s, .reply (failAt 1 stBadField))
    else
      match regionSetFail s.chip c.cmd with
      | some r => (s, .reply r)
      | none =>
        let r := cb c.cmd 0x10 2
        let ch := applyRegion s.chip c.cmd
        ({ s with chip := ch },
          .reply (okWith (rb 0x10 2 r ||| rb 0x12 1 (getSweep ch r).state ||| rb 0x14 2 ch.admitGen)))

/-- Sweep writes of a region that wait for the controller are withdrawn. -/
def dropRegionOps (ch : Chip) (r : Nat) : Chip :=
  let keep (o : LineOp) : Bool := !(o.kind = .sweep && o.region = r)
  let lane (l : Lane) : Lane := { l with bg := l.bg.filter keep, stuck := l.stuck.filter keep }
  { ch with lines := Tbl.mapVals {} (fun _ l => { l with lane0 := lane l.lane0, lane1 := lane l.lane1 }) ch.lines }

/-- Clear an enabled region (R294): its sweep stops, and its key is no longer BOUND. -/
def clearRegion (ch : Chip) (r : Nat) : Chip :=
  let e := rgCkey (regionOf ch.cfg r)
  let ch := writeRegion ch r 0
  dropRegionOps (setSweep (setLineDesc ch e (setFld (lineDesc ch e) 102 1 0)) r {}) r

/-- XN_REGION_CLEAR. -/
def execXnRegionClear (mb : Fin 1028) (s : State) : Out :=
  onState s fun s => runCommand s mb (isOp 0x0502) [(0x10, 16)] fun s c =>
    let ch := s.chip
    let r := cb c.cmd 0x10 2
    let reg := regionOf ch.cfg r
    if 4096 ≤ r then (s, .reply (failAt 1 stBadField))
    else if rgKind reg = 2 then (s, .reply (failAt 2 stDenied))
    else if rgRekey reg then (s, .reply (failAt 3 stBusy))
    else if ch.live2 then (s, .reply (failAt 4 stGenBusy))
    else if rgKind reg = 0 then (s, .reply {})
    else ({ s with chip := clearRegion ch r }, .reply {})

/-- A region entry with SWEEP and SSTATE in place (Table 8.2). -/
def regionView (ch : Chip) (r : Nat) : Nat :=
  let reg := regionOf ch.cfg r
  let w := getSweep ch r
  if rgKind reg = 0 then 0 else reg.toNat ||| field 130 46 w.bound ||| field 66 2 w.state

/-- XN_REGION_QUERY. -/
def execXnRegionQuery (mb : Fin 1028) (s : State) : Out :=
  onState s fun s => runCommand s mb (isOp 0x0503) [(0x10, 12)] fun s c =>
    let ch := s.chip
    let r := cb c.cmd 0x10 2
    let reg := regionOf ch.cfg r
    if mb.val < 1024 && rgKind reg != 0 && !(rgKind reg = 1 && rgTenant reg = mb.val) then
      (s, .reply (failAt 1 stDenied))
    else
      let rbl := match regionJob ch r with | some (_, j) => j.rb | none => 0
      (s, .reply (okWith (rb 0x10 32 (regionView ch r) ||| rb 0x30 6 rbl)))

/-- Every line port in the first COUNT entries of PTAB is enabled (check 3 of R296). -/
def mapPortsOpen (ch : Chip) : Bool :=
  (List.range (lineCount ch.cfg)).all fun i => (getLine ch (ptab ch.cfg i)).st = .enabled

/-- XN_SWEEP_CTL. -/
def execXnSweepCtl (mb : Fin 1028) (s : State) : Out :=
  onState s fun s => runCommand s mb (isOp 0x0504) [(0x10, 16), (0x12, 8)] fun s c =>
    let ch := s.chip
    let r := cb c.cmd 0x10 2
    let action := cb c.cmd 0x12 1
    let w := getSweep ch r
    if 4096 ≤ r || action = 0 || 2 < action || rgKind (regionOf ch.cfg r) = 0 then (s, .reply (failAt 1 stBadField))
    else if w.state != action then (s, .reply (failAt 2 stDenied))
    else if action = 2 && !mapPortsOpen ch then (s, .reply (failAt 3 stBusy))
    else ({ s with chip := setSweep ch r { w with state := 3 - action, byPort := [] } }, .reply {})

/-! ### Line keys (R297 to R299) -/

/-- Checks 1 to 5 of Table 5.7, for a line key entry. -/
def lkeyFail (ch : Chip) (t e : Nat) (c : Call) : Option Reply :=
  match custodyFail ch with
  | some r => some r
  | none =>
    let st := ldState (lineDesc ch e)
    let len := cb c.cmd 0x16 2
    if !inLineQuota (tenantCfg ch.cfg t) e then some (failAt 2 stKeyOwner)
    else if st != ssEmpty then some (failAt 3 (if st = ssLoading || st = ssActive then stDenied else stKeyRetiring))
    else if !kekActive ch (16 * t + cb c.cmd 0x14 1) then some (failAt 4 stKeyEmpty)
    else if !(len = 72 || len = 104) || !blobWords c.blob len then some (failAt 5 stBadField)
    else none

/-- Checks 7 to 9, with the additions of R182 to check 7. -/
def lattrFail (c : TenantCfg) (a : KeyAttr) : Option Reply :=
  attrFail c { a with framed := a.framed && (a.mode = 1 || a.mode = 2) && a.usize = 0 && a.ops = 0x18 }

/-- An enabled region names an entry as CKEY or NKEY. -/
def bindsEntry (reg : BitVec 256) (e : Nat) : Bool := rgKind reg != 0 && (rgCkey reg = e || (rgRekey reg && rgNkey reg = e))

/-- The region that binds an entry (R299). -/
def binder (ch : Chip) (e : Nat) : Option Nat := (ch.cfg.regions.find? fun x => bindsEntry x.2 e).map (·.1)

/-- XN_LKEY_INSTALL. -/
def execXnLkeyInstall (mb : Fin 1028) (s : State) : Out :=
  onState s fun s => runCommand s mb (isOp 0x0505) [(0x10, 10), (0x12, 12), (0x14, 4), (0x16, 16)] fun s c =>
    let ch := s.chip
    let t := cb c.cmd 0x10 2
    let e := cb c.cmd 0x12 2
    let kekslot := cb c.cmd 0x14 1
    match lkeyFail ch t e c with
    | some r => (s, .reply r)
    | none =>
      match unwrapKek ch (16 * t + kekslot) (blobBytes c.blob (cb c.cmd 0x16 2)) with
      | none => (s, .reply (failAt 6 stAuthFail))
      | some pt =>
        let a := blobAttr pt t kekslot
        match lattrFail (tenantCfg ch.cfg t) a with
        | some r => (s, .reply r)
        | none =>
          let ch := fillEntry ch e t a.mode false (binder ch e).isSome (budgetOf ch t a) a.key
          ({ s with chip := ch }, .reply (okWith (rb 0x10 2 e ||| rb 0x12 1 (ldLgen (lineDesc ch e)) |||
            rb 0x13 3 (kcvNum a.key) ||| rb 0x16 1 a.mode)))

/-- The checks of XN_LKEY_RETIRE. -/
def lkeyRetireFail (ch : Chip) (t e lgen : Nat) : Option Reply :=
  let d := lineDesc ch e
  if !inLineQuota (tenantCfg ch.cfg t) e then some (failAt 1 stKeyOwner)
  else if ldState d = ssEmpty then some (failAt 2 stKeyEmpty)
  else if ldLgen d != lgen then some (failAt 3 stKeyStale)
  else if ldBound d then some (failAt 4 stDenied)
  else if ldState d != ssActive then some (failAt 5 stKeyRetiring)
  else none

/-- XN_LKEY_RETIRE. -/
def execXnLkeyRetire (mb : Fin 1028) (s : State) : Out :=
  onState s fun s => runCommand s mb (isOp 0x0506) [(0x10, 10), (0x12, 12), (0x14, 8)] fun s c =>
    let e := cb c.cmd 0x12 2
    match lkeyRetireFail s.chip (cb c.cmd 0x10 2) e (cb c.cmd 0x14 1) with
    | some r => (s, .reply r)
    | none => ({ s with chip := retireEntry s.chip e }, .reply {})

/-- KCV of a line key entry, for ACTIVE and RETIRING entries. -/
def entryKcv (ch : Chip) (e : Nat) : Nat :=
  let d := lineDesc ch e
  if ldState d = ssActive || ldState d = ssRetiring then kcvNum ((lineKey ch 0 e).take (keyBytesOf (ldMode d))) else 0

/-- XN_LKEY_QUERY. -/
def execXnLkeyQuery (mb : Fin 1028) (s : State) : Out :=
  onState s fun s => runCommand s mb (isOp 0x0507) [(0x10, 10), (0x12, 12)] fun s c =>
    let ch := s.chip
    let t := cb c.cmd 0x10 2
    let e := cb c.cmd 0x12 2
    if !ownTenant mb t then (s, .reply (failAt 1 stDenied))
    else if !inLineQuota (tenantCfg ch.cfg t) e then (s, .reply (failAt 1 stKeyOwner))
    else
      (s, .reply (okWith (rb 0x10 16 (lineDesc ch e).toNat ||| rb 0x20 3 (entryKcv ch e) |||
        rb 0x24 2 ((binder ch e).getD 0xFFFF))))

/-! ### XN_REGION_REKEY (R302) -/

/-- Fields in range, and the region enabled (check 1). SOURCE counts for START only. -/
def rekeyFieldsOk (ch : Chip) (c : CommandWord) : Bool :=
  let action := cb c 0x12 1
  let source := cb c 0x13 1
  cb c 0x10 2 < 4096 && 1 ≤ action && action ≤ 4 && (action != 1 || source ≤ 1) &&
    rgKind (regionOf ch.cfg (cb c 0x10 2)) != 0

/-- The rows of R213, in order (check 2), then checks 3, 4 and 8. A successor is not drawn while the random unit is not seeded (R404;
its place and DETAIL are a DESIGN CHOICE, log entry 158). -/
def rekeyStartFail (ch : Chip) (r source nkey : Nat) : Option Reply :=
  let reg := regionOf ch.cfg r
  let d := lineDesc ch nkey
  match jobRefusal ch r with
  | some st => some (failAt 2 st)
  | none =>
    if source = 0 && (ldState d != ssActive || ldTenant d != rgTenant reg || ldBound d) then some (failAt 2 stDenied)
    else if !keepRoom ch reg then some (failAt 2 stNoResource)
    else if rgKind reg = 2 && source != 1 then some (failAt 3 stDenied)
    else if source = 1 && (drawTarget ch reg).isNone then some (failAt 4 stNoResource)
    else if source = 1 && !ch.rng.seeded then some (failAt 4 stRngUnseeded)
    else if ch.live2 then some (failAt 8 stGenBusy)
    else none

/-- The checks of PAUSE, RESUME and ABORT. -/
def rekeyCtlFail (ch : Chip) (r action : Nat) : Option Reply :=
  let reg := regionOf ch.cfg r
  match regionJob ch r with
  | none => some (failAt 5 stDenied)
  | some (_, j) =>
    if action = 3 && !mapPortsOpen ch then some (failAt 6 stBusy)
    else if action = 4 && !(j.win = 0 && j.rb = rgFirst reg) then some (failAt 7 stBusy)
    else if action = 4 && ch.live2 then some (failAt 8 stGenBusy)
    else none

/-- PAUSE: a window that is open finishes; one still pending is withdrawn, and what it held is judged. -/
def pauseJob (ch : Chip) (n : Nat) (j : LineJob) : Chip :=
  if j.win = 1 then releaseHeld (setLjob ch n (some { j with paused := true, win := 0, re := j.rb })) {}
  else setLjob ch n (some { j with paused := true })

/-- RESUME from RB. -/
def resumeJob (ch : Chip) (n : Nat) (j : LineJob) : Chip :=
  let j := { j with paused := false }
  if j.win = 0 && j.swapAt.isNone then openNext ch n j else setLjob ch n (some j)

/-- ABORT before any line has moved (R217): REKEY is 0, CKEY stays, and NKEY is released. -/
def abortJob (ch : Chip) (r n : Nat) : Chip :=
  let reg := regionOf ch.cfg r
  let nkey := rgNkey reg
  let reg' := setFld (setFld (setFld reg 106 12 0) 68 1 0) 58 8 0
  let ch := writeRegion ch r reg'
  setLjob (setLineDesc ch nkey (setFld (lineDesc ch nkey) 102 1 0)) n none

/-- The actions of XN_REGION_REKEY. -/
def rekeyAct (ch : Chip) (r action source nkey : Nat) : Chip :=
  if action = 1 then
    (if source = 0 then startLineJob ch r nkey else drawAndStart ch r ((drawTarget ch (regionOf ch.cfg r)).getD 0))
  else
    match regionJob ch r with
    | none => ch
    | some (n, j) => if action = 2 then pauseJob ch n j else if action = 3 then resumeJob ch n j else abortJob ch r n

/-- RESULT of XN_REGION_REKEY. -/
def rekeyResult (ch : Chip) (r : Nat) : Nat :=
  let reg := regionOf ch.cfg r
  let rbl := match regionJob ch r with | some (_, j) => j.rb | none => 0
  rb 0x10 2 r ||| rb 0x12 1 (rgJob reg) ||| rb 0x14 2 (rgNkey reg) ||| rb 0x18 6 rbl ||| rb 0x1E 2 ch.admitGen

/-- XN_REGION_REKEY. -/
def execXnRegionRekey (mb : Fin 1028) (s : State) : Out :=
  onState s fun s => runCommand s mb (isOp 0x0607) [(0x10, 16), (0x12, 8), (0x13, 8), (0x14, 12)] fun s c =>
    let r := cb c.cmd 0x10 2
    let action := cb c.cmd 0x12 1
    let source := cb c.cmd 0x13 1
    let nkey := cb c.cmd 0x14 2
    if !rekeyFieldsOk s.chip c.cmd then (s, .reply (failAt 1 stBadField))
    else
      match (if action = 1 then rekeyStartFail s.chip r source nkey else rekeyCtlFail s.chip r action) with
      | some f => (s, .reply f)
      | none =>
        let ch := rekeyAct s.chip r action source nkey
        ({ s with chip := ch }, .reply (okWith (rekeyResult ch r)))

end Sys2Proof.Machine
end

