-- ==== Sys2Proof/Machine/Rows.lean ====
section
/-! DEFINITION. The idle time of open stripe rows (R172, 07_shards.md). -/

namespace Sys2Proof.Machine

/-- ROW_IDLE_EXPIRY: due when no message of an open row that is not fully claimed has been admitted for ROW_IDLE. -/
def execRowIdleExpiry (p : Fin 64) (row : RowId) (s : State) : Out :=
  onChip s fun ch =>
    match findRow ch p row with
    | none => ch
    | some r =>
      if r.closer.isSome || ch.cycle < r.lastAt + 1000 * rowIdleMs ch.cfg * usCycles ch then ch
      else discardRow ch p r 2 0x60

end Sys2Proof.Machine
end

