-- ==== Sys2Proof/Machine/Dispatch.lean ====
section
/-! DEFINITION. The effect of each command, one arm for each row of the table of steps. -/

namespace Sys2Proof.Machine

open Sys2Proof

def exec (i : Instr) (s : State) : Host.Outcome State Fault Refusal :=
  match i with
  | .ingressFlit p f => Sys2Proof.Machine.execIngressFlit p f s
  | .admission p c bad => Sys2Proof.Machine.execAdmission p c bad s
  | .flitGapTimeout p c => Sys2Proof.Machine.execFlitGapTimeout p c s
  | .flitIssue cl fails => Sys2Proof.Machine.execFlitIssue cl fails s
  | .blockRetry cl fails => Sys2Proof.Machine.execBlockRetry cl fails s
  | .currantFlit u upset => Sys2Proof.Machine.execCurrantFlit u upset s
  | .checkColumnRepass u upset => Sys2Proof.Machine.execCheckColumnRepass u upset s
  | .verdict p ctx => Sys2Proof.Machine.execVerdict p ctx s
  | .egressCredit p c => Sys2Proof.Machine.execEgressCredit p c s
  | .egressFlitDrive p => Sys2Proof.Machine.execEgressFlitDrive p s
  | .portStallEvent p c => Sys2Proof.Machine.execPortStallEvent p c s
  | .portStallFence p c => Sys2Proof.Machine.execPortStallFence p c s
  | .clockLoss clk => Sys2Proof.Machine.execClockLoss clk s
  | .subleaseRefill => Sys2Proof.Machine.execSubleaseRefill s
  | .leaseReserved => Sys2Proof.Machine.execLeaseReserved s
  | .leaseRetry => Sys2Proof.Machine.execLeaseRetry s
  | .flashProgramDone d ok => Sys2Proof.Machine.execFlashProgramDone d ok s
  | .flashEraseDone d ok => Sys2Proof.Machine.execFlashEraseDone d ok s
  | .keyScrub k bad => Sys2Proof.Machine.execKeyScrub k bad s
  | .keyClearingDone k => Sys2Proof.Machine.execKeyClearingDone k s
  | .dualSessionExpiry => Sys2Proof.Machine.execDualSessionExpiry s
  | .enrolAllowExpiry o => Sys2Proof.Machine.execEnrolAllowExpiry o s
  | .officerLockoutEnd o => Sys2Proof.Machine.execOfficerLockoutEnd o s
  | .lineRequest p lane q fails => Sys2Proof.Machine.execLineRequest p lane q fails s
  | .lineReadData p lane d fails => Sys2Proof.Machine.execLineReadData p lane d fails s
  | .lineWriteTaken p lane fails => Sys2Proof.Machine.execLineWriteTaken p lane fails s
  | .sweepWrite r fails => Sys2Proof.Machine.execSweepWrite r fails s
  | .lineWindowOpen r => Sys2Proof.Machine.execLineWindowOpen r s
  | .lineRekeyRead r => Sys2Proof.Machine.execLineRekeyRead r s
  | .lineRekeySwap r => Sys2Proof.Machine.execLineRekeySwap r s
  | .rekeyNoKeyRetry r => Sys2Proof.Machine.execRekeyNoKeyRetry r s
  | .windowPending => Sys2Proof.Machine.execWindowPending s
  | .windowOpen job => Sys2Proof.Machine.execWindowOpen job s
  | .brambleFetchRead => Sys2Proof.Machine.execBrambleFetchRead s
  | .brambleDone data => Sys2Proof.Machine.execBrambleDone data s
  | .fetchLimitExpiry job => Sys2Proof.Machine.execFetchLimitExpiry job s
  | .generationDrain => Sys2Proof.Machine.execGenerationDrain s
  | .dispatchRewrite => Sys2Proof.Machine.execDispatchRewrite s
  | .tenantSweepDone t => Sys2Proof.Machine.execTenantSweepDone t s
  | .tenantPurgeDone t => Sys2Proof.Machine.execTenantPurgeDone t s
  | .authInterval => Sys2Proof.Machine.execAuthInterval s
  | .mbCommandWrite mb a => Sys2Proof.Machine.execMbCommandWrite mb a s
  | .mbDoorbell mb data => Sys2Proof.Machine.execMbDoorbell mb data s
  | .mbDone mb data => Sys2Proof.Machine.execMbDone mb data s
  | .jobEnd handle => Sys2Proof.Machine.execJobEnd handle s
  | .attentionTransfer => Sys2Proof.Machine.execAttentionTransfer s
  | .attEnWrite page data => Sys2Proof.Machine.execAttEnWrite page data s
  | .cfgCommitGo => Sys2Proof.Machine.execCfgCommitGo s
  | .cfgCommitDiscard => Sys2Proof.Machine.execCfgCommitDiscard s
  | .cfgCommitApply => Sys2Proof.Machine.execCfgCommitApply s
  | .stagedRegisterWrite off data => Sys2Proof.Machine.execStagedRegisterWrite off data s
  | .portCreditWrite p data => Sys2Proof.Machine.execPortCreditWrite p data s
  | .portTimersWrite data => Sys2Proof.Machine.execPortTimersWrite data s
  | .keyDataWrite t w data => Sys2Proof.Machine.execKeyDataWrite t w data s
  | .kshareWrite o w data => Sys2Proof.Machine.execKshareWrite o w data s
  | .blobWrite mb w data => Sys2Proof.Machine.execBlobWrite mb w data s
  | .faultStickyClear w data => Sys2Proof.Machine.execFaultStickyClear w data s
  | .alarmMapClear w data => Sys2Proof.Machine.execAlarmMapClear w data s
  | .rngDataRead => Sys2Proof.Machine.execRngDataRead s
  | .evtCursorWrite data => Sys2Proof.Machine.execEvtCursorWrite data s
  | .evtWindowRead w => Sys2Proof.Machine.execEvtWindowRead w s
  | .evtWindowFillDone => Sys2Proof.Machine.execEvtWindowFillDone s
  | .stagingWindowWrite off data => Sys2Proof.Machine.execStagingWindowWrite off data s
  | .registerWrite off a => Sys2Proof.Machine.execRegisterWrite off a s
  | .faultMessage o => Sys2Proof.Machine.execFaultMessage o s
  | .unitResetDone unit => Sys2Proof.Machine.execUnitResetDone unit s
  | .settleWindowClose unit => Sys2Proof.Machine.execSettleWindowClose unit s
  | .haltEgressTimeout => Sys2Proof.Machine.execHaltEgressTimeout s
  | .zeroizeSweepDone => Sys2Proof.Machine.execZeroizeSweepDone s
  | .katRun unit pass => Sys2Proof.Machine.execKatRun unit pass s
  | .katForce unit pass => Sys2Proof.Machine.execKatForce unit pass s
  | .standbyRotate p => Sys2Proof.Machine.execStandbyRotate p s
  | .shadowWalker item upset upsetInv bad => Sys2Proof.Machine.execShadowWalker item upset upsetInv bad s
  | .monitorTrip n sample => Sys2Proof.Machine.execMonitorTrip n sample s
  | .tempWarn site reading => Sys2Proof.Machine.execTempWarn site reading s
  | .pfailLowCrossing => Sys2Proof.Machine.execPfailLowCrossing s
  | .tamperLatchClear n => Sys2Proof.Machine.execTamperLatchClear n s
  | .sloeFail src test => Sys2Proof.Machine.execSloeFail src test s
  | .sloeRejoin src => Sys2Proof.Machine.execSloeRejoin src s
  | .drbgReseed => Sys2Proof.Machine.execDrbgReseed s
  | .seedingDone => Sys2Proof.Machine.execSeedingDone s
  | .recorderFlushTimer => Sys2Proof.Machine.execRecorderFlushTimer s
  | .recorderHalfVerified => Sys2Proof.Machine.execRecorderHalfVerified s
  | .mirrorRecoveryDone d => Sys2Proof.Machine.execMirrorRecoveryDone d s
  | .handoverBegin => Sys2Proof.Machine.execHandoverBegin s
  | .handoverReady => Sys2Proof.Machine.execHandoverReady s
  | .handoverTimeout => Sys2Proof.Machine.execHandoverTimeout s
  | .pfailAssert => Sys2Proof.Machine.execPfailAssert s
  | .pfailDeassert => Sys2Proof.Machine.execPfailDeassert s
  | .powerOnReset boot => Sys2Proof.Machine.execPowerOnReset boot s
  | .bootReady => Sys2Proof.Machine.execBootReady s
  | .powerLoss => Sys2Proof.Machine.execPowerLoss s
  | .aonSupplyStart => Sys2Proof.Machine.execAonSupplyStart s
  | .hostResetAssert => Sys2Proof.Machine.execHostResetAssert s
  | .hostResetRelease => Sys2Proof.Machine.execHostResetRelease s
  | .xnDeviceQuery mb => Sys2Proof.Machine.execXnDeviceQuery mb s
  | .xnJobQuery mb => Sys2Proof.Machine.execXnJobQuery mb s
  | .xnPortCtl mb => Sys2Proof.Machine.execXnPortCtl mb s
  | .xnPortQuery mb => Sys2Proof.Machine.execXnPortQuery mb s
  | .xnDeviceZeroize mb => Sys2Proof.Machine.execXnDeviceZeroize mb s
  | .xnFactoryLock mb ok => Sys2Proof.Machine.execXnFactoryLock mb ok s
  | .xnTenantEnable mb => Sys2Proof.Machine.execXnTenantEnable mb s
  | .xnTenantDisable mb => Sys2Proof.Machine.execXnTenantDisable mb s
  | .xnTenantReset mb => Sys2Proof.Machine.execXnTenantReset mb s
  | .xnTenantQuery mb => Sys2Proof.Machine.execXnTenantQuery mb s
  | .xnTenantSet mb => Sys2Proof.Machine.execXnTenantSet mb s
  | .xnKeyInstall mb => Sys2Proof.Machine.execXnKeyInstall mb s
  | .xnKeyRetire mb => Sys2Proof.Machine.execXnKeyRetire mb s
  | .xnKeyQuery mb => Sys2Proof.Machine.execXnKeyQuery mb s
  | .xnKeyPin mb bad => Sys2Proof.Machine.execXnKeyPin mb bad s
  | .xnKeyUnpin mb => Sys2Proof.Machine.execXnKeyUnpin mb s
  | .xnKekLoad mb => Sys2Proof.Machine.execXnKekLoad mb s
  | .xnKekQuery mb => Sys2Proof.Machine.execXnKekQuery mb s
  | .xnKekErase mb => Sys2Proof.Machine.execXnKekErase mb s
  | .xnKeyQuota mb => Sys2Proof.Machine.execXnKeyQuota mb s
  | .xnLeaseQuery mb => Sys2Proof.Machine.execXnLeaseQuery mb s
  | .xnLocalSlotSet mb => Sys2Proof.Machine.execXnLocalSlotSet mb s
  | .xnDualOpen mb => Sys2Proof.Machine.execXnDualOpen mb s
  | .xnShareCommit mb ok => Sys2Proof.Machine.execXnShareCommit mb ok s
  | .xnDualCancel mb => Sys2Proof.Machine.execXnDualCancel mb s
  | .xnDualStatus mb => Sys2Proof.Machine.execXnDualStatus mb s
  | .xnOfficerEnrol mb => Sys2Proof.Machine.execXnOfficerEnrol mb s
  | .xnEnrolAllow mb => Sys2Proof.Machine.execXnEnrolAllow mb s
  | .xnOfficerZeroize mb => Sys2Proof.Machine.execXnOfficerZeroize mb s
  | .xnRegionSet mb => Sys2Proof.Machine.execXnRegionSet mb s
  | .xnRegionClear mb => Sys2Proof.Machine.execXnRegionClear mb s
  | .xnRegionQuery mb => Sys2Proof.Machine.execXnRegionQuery mb s
  | .xnSweepCtl mb => Sys2Proof.Machine.execXnSweepCtl mb s
  | .xnLkeyInstall mb => Sys2Proof.Machine.execXnLkeyInstall mb s
  | .xnLkeyRetire mb => Sys2Proof.Machine.execXnLkeyRetire mb s
  | .xnLkeyQuery mb => Sys2Proof.Machine.execXnLkeyQuery mb s
  | .xnRangeArm mb => Sys2Proof.Machine.execXnRangeArm mb s
  | .xnRangeStart mb => Sys2Proof.Machine.execXnRangeStart mb s
  | .xnRangePause mb => Sys2Proof.Machine.execXnRangePause mb s
  | .xnRangeResume mb => Sys2Proof.Machine.execXnRangeResume mb s
  | .xnRangeAbort mb => Sys2Proof.Machine.execXnRangeAbort mb s
  | .xnRangeQuery mb => Sys2Proof.Machine.execXnRangeQuery mb s
  | .xnRegionRekey mb => Sys2Proof.Machine.execXnRegionRekey mb s
  | .xnProfileSet mb => Sys2Proof.Machine.execXnProfileSet mb s
  | .xnProfileClear mb => Sys2Proof.Machine.execXnProfileClear mb s
  | .xnProfileQuery mb => Sys2Proof.Machine.execXnProfileQuery mb s
  | .xnPatternLoad mb => Sys2Proof.Machine.execXnPatternLoad mb s
  | .xnPatternClear mb => Sys2Proof.Machine.execXnPatternClear mb s
  | .xnPatternQuery mb => Sys2Proof.Machine.execXnPatternQuery mb s
  | .xnGroupStage mb => Sys2Proof.Machine.execXnGroupStage mb s
  | .xnGroupCommit mb => Sys2Proof.Machine.execXnGroupCommit mb s
  | .xnGroupQuery mb => Sys2Proof.Machine.execXnGroupQuery mb s
  | .xnKekExport mb => Sys2Proof.Machine.execXnKekExport mb s
  | .xnGroupLeave mb => Sys2Proof.Machine.execXnGroupLeave mb s
  | .xnLogStatus mb => Sys2Proof.Machine.execXnLogStatus mb s
  | .xnPipRead mb => Sys2Proof.Machine.execXnPipRead mb s
  | .xnTimeMark mb => Sys2Proof.Machine.execXnTimeMark mb s
  | .xnLogFlush mb => Sys2Proof.Machine.execXnLogFlush mb s
  | .xnFaultQuery mb => Sys2Proof.Machine.execXnFaultQuery mb s
  | .xnFaultSeverity mb => Sys2Proof.Machine.execXnFaultSeverity mb s
  | .xnUnitQuery mb => Sys2Proof.Machine.execXnUnitQuery mb s
  | .xnUnitFence mb => Sys2Proof.Machine.execXnUnitFence mb s
  | .xnUnitRevive mb pass => Sys2Proof.Machine.execXnUnitRevive mb pass s
  | .xnFaultCtl mb => Sys2Proof.Machine.execXnFaultCtl mb s
  | .xnFwQuery mb => Sys2Proof.Machine.execXnFwQuery mb s
  | .xnStageOpen mb => Sys2Proof.Machine.execXnStageOpen mb s
  | .xnStageWrite mb => Sys2Proof.Machine.execXnStageWrite mb s
  | .xnStageClose mb => Sys2Proof.Machine.execXnStageClose mb s
  | .xnFwActivate mb => Sys2Proof.Machine.execXnFwActivate mb s
  | .xnSvnCommit mb ok => Sys2Proof.Machine.execXnSvnCommit mb ok s
  | .rowIdleExpiry p row => Sys2Proof.Machine.execRowIdleExpiry p row s
  | .flashOperationTimeout d => Sys2Proof.Machine.execFlashOperationTimeout d s
  | .aonSupplyLoss => Sys2Proof.Machine.execAonSupplyLoss s
  | .lineReadRequestTaken p lane fails => Sys2Proof.Machine.execLineReadRequestTaken p lane fails s
  | .undefinedOpcode mb => Sys2Proof.Machine.execUndefinedOpcode mb s
  | .rngStallExpiry => Sys2Proof.Machine.execRngStallExpiry s

end Sys2Proof.Machine
end

