-- ==== Sys2Proof/Machine/Tick.lean ====
section
/-! DEFINITION. What passes with time when no command waits: one core cycle of a powered chip, one tick of the always-on domain
without power (DESIGN CHOICE, log entry 1). The limits that the timers reach have commands of their own. -/

namespace Sys2Proof.Machine

/-- A message of the class is open, and not merely discarded. -/
def classOpen (ic : IngClass) : Bool :=
  match ic.run with
  | .idle => false
  | .waiting => true
  | .admitted _ => true
  | .rejected .. => true
  | .ended _ => true
  | .discard => false

/-- The flit gap timer counts only while the host holds a credit of the class (R52). -/
def tickGap (ic : IngClass) : IngClass :=
  if classOpen ic && ic.unspent != 0 then { ic with gap := ic.gap + 1 } else ic

/-- The stall timer counts while a flit of the class is ready and the class has no credit (R47). -/
def tickStall (pt : Port) (c : Fin 4) : Nat :=
  if classReady pt c && Quad.get pt.credit c = 0 then Quad.get pt.stall c + 1 else Quad.get pt.stall c

/-- The class-0 tokens rise by CL0_RATE / 256, up to CL0_BURST (R92). -/
def tickTokens (c : Cfg) (p : Nat) (level : Int) : Int :=
  min (level + cl0Rate c p) (256 * cl0Burst c p)

/-- One core cycle of a stream port. -/
def tickPort (ch : Chip) (p : Nat) (pt : Port) : Port :=
  if pt.st != .enabled || halted ch then pt
  else
    { pt with
      ing := Quad.map (fun _ ic => tickGap ic) pt.ing
      stall := ⟨tickStall pt 0, tickStall pt 1, tickStall pt 2, tickStall pt 3⟩
      tokens := tickTokens ch.cfg p pt.tokens }

/-- What has passed the bound of its command goes on as a job (R249): a slot change (R285, R306, R309), or a group record that
is not yet verified. -/
def tickSlotChange (ch : Chip) : Chip :=
  match ch.quince.exec with
  | none => ch
  | some x =>
    match x.wait with
    | .slotChange limit _ =>
      if nowUs ch < limit then ch
      else
        let op := cOpcode (Tbl.get ({} : MbSlot) (getMb ch x.mb).slots x.slot).cmd
        let job := startJob ch x.mb op
        let ch := { job.2 with fw := { job.2.fw with slotJob := some (job.1, op) } }
        finishExec ch { status := stInProgress, job := job.1.toNat }
    | .group desc leave limit =>
      if nowUs ch < limit then ch
      else
        let op := if leave then 0x0805 else 0x0802
        let job := startJob ch x.mb op
        let ch := { job.2 with fw := { job.2.fw with groupJob := some (job.1, op, desc, leave) } }
        finishExec ch { status := stInProgress, job := job.1.toNat }
    | _ => ch

/-- One core cycle of a powered chip. -/
def tickChip (ch : Chip) : Chip :=
  let ch := { ch with cycle := ch.cycle + 1 }
  sampleSloes <| tickSlotChange { ch with ports := Tbl.mapVals {} (fun p pt => tickPort ch p pt) ch.ports }

/-- A tick of the sampler of a source: without a report it passes (R386, R388; DESIGN CHOICE, log entry 141). One disabled by fuse does not sample (R390). -/
def tickSampler (a : Aon) (i : Nat) (m : Tbl Sampler) : Tbl Sampler :=
  if a.fused.getLsbD i then m
  else
    let drive := if i ≤ 18 then some ((Tbl.get (meshInit (i - 11)) a.mesh (i - 11)).getLsbD 0) else none
    Tbl.modify {} m i (passTick (a.tripped.getLsbD i) drive)

/-- One microsecond of the always-on domain: its counter, the mesh sequences and the samplers (R380, R386). -/
def tickAon (a : Aon) : Aon :=
  if !a.present then a
  else
    { a with
      tick := (a.tick + 1) % 2 ^ 56
      mesh := (List.range 8).foldl (fun m k => Tbl.modify (meshInit k) m k meshStep) a.mesh
      samplers := ((List.range 13).map (11 + ·)).foldl (fun m i => tickSampler a i m) a.samplers }

/-- One tick. -/
def tick (s : State) : State :=
  if s.chip.powered then
    let ch := tickChip s.chip
    { s with chip := ch, aon := if ch.cycle % usCycles ch = 0 then tickAon s.aon else s.aon }
  else { s with aon := tickAon s.aon }

end Sys2Proof.Machine
end

