-- ==== Sys2Proof/WellFormed.lean ====
section
/-! DEFINITION. Which commands are well formed: the checks on operands that their types do not make. Every command has an
effect in every state, well formed or not; these are the commands that the interface can carry. -/

namespace Sys2Proof

/-- An access moves 1, 2, 4 or 8 bytes and stays within its naturally aligned word (R328, 14_registers.md; the other widths
end in an error response). -/
def Access.ok (a : Access) : Bool := a.size = 1 || a.size = 2 || a.size = 4 || a.size = 8

/-- A message formed names a source of Table 15.2 and a kind of Table 15.4 (15_faults.md). -/
def FaultOrigin.ok (o : FaultOrigin) : Bool :=
  match o with
  | .formed src kind _ damage => (Machine.srcSticky src.toNat).isSome && Machine.kindDefined kind.toNat && damage.Nodup
  | .waiting _ => true
  | .corrected _ => true
  | .unreadable _ => true

/-- A unit of levels 4 and 5 (Table 15.2). -/
def unitOk (unit : BitVec 16) : Bool := (Machine.srcUnit unit.toNat) = some unit.toNat

/-- A block fails its check in a lane once (R361, 16_degraded.md). -/
def lanesOk (fails : List BlockFail) : Bool := (fails.map (·.lane)).Nodup

/-- A block of a line fails on a slice once (R364, 16_degraded.md). -/
def lineFailsOk (fails : List LineFail) : Bool := (fails.map fun f => (f.addr, f.block, f.slice)).Nodup

/-- What a line port meets: a stored byte reads wrong once (R116, 05_keys.md). -/
def lineMeetsOk (met : LineMeets) : Bool := lineFailsOk met.fails && met.bad.Nodup

/-- A byte lane's products are upset once, by an error (R365, 16_degraded.md). -/
def upsetsOk (us : List LaneUpset) : Bool := (us.map (·.lane)).Nodup && us.all (·.error != 0)

/-- The operand checks. -/
def Instr.wf (i : Instr) : Bool :=
  match i with
  | .admission _ _ bad => bad.Nodup
  | .keyScrub _ bad => bad.Nodup
  | .xnKeyPin _ bad => bad.Nodup
  | .mbCommandWrite _ a => a.ok
  | .registerWrite _ a => a.ok
  | .faultMessage o => o.ok
  | .unitResetDone u => unitOk u
  | .settleWindowClose u => unitOk u
  | .katRun u _ => unitOk u || u.toNat = Machine.srcSub 6
  | .katForce u _ => unitOk u
  | .flitIssue _ fails => lanesOk fails
  | .blockRetry _ fails => lanesOk fails
  | .currantFlit _ us => upsetsOk us
  | .checkColumnRepass _ us => upsetsOk us
  | .lineRequest _ _ _ met => lineMeetsOk met
  | .lineReadData _ _ _ met => lineMeetsOk met
  | .lineWriteTaken _ _ met => lineMeetsOk met
  | .lineReadRequestTaken _ _ met => lineMeetsOk met
  | .sweepWrite _ met => lineMeetsOk met
  | .monitorTrip n m => Machine.sampleOf n m
  | _ => true

end Sys2Proof
end

