-- ==== Sys2Proof/Safety.lean ====
section
/-! DEFINITION. The terms that statements about the block are made in: when Quince serves a command and what its answer is
(11_mailboxes.md), what a response holds, and what no run of the block may undo. -/

namespace Sys2Proof.Machine

open Sys2Proof

/-! ### A command that Quince serves -/

/-- AUTH of an officer's command verifies (checks 4 to 6 of Table 11.7; R253). -/
structure AuthVerifies (s : State) (o : Nat) (cmd : CommandWord) : Prop where
  seeded : s.chip.rng.seeded = true
  unlocked : ∀ e, (getOfficer s.chip o).lockUntil = some e → e ≤ nowUs s.chip
  key : (authKey s.chip o (cOpcode cmd)).isSome
  mac : ∀ k, authKey s.chip o (cOpcode cmd) = some k →
    cb cmd 0x70 16 = ofLE (cmac k ((bvBytes 128 cmd).take 112 ++ challengeOf (getOfficer s.chip o)))

/-- The command word `cmd` of opcode `op` heads mailbox `mb`, in `slot`; the mailbox is the one that Quince serves next
(R248), and the command passes every check of Table 11.7. -/
structure Served (s : State) (mb slot op : Nat) (cmd : CommandWord) : Prop where
  powered : s.chip.powered = true
  serving : serving s.chip = true
  turn : nextMailbox s.chip = some mb
  head : (getMb s.chip mb).order.head? = some slot
  word : (Tbl.get {} (getMb s.chip mb).slots slot).cmd = cmd
  opcode : cOpcode cmd = op
  rom : s.chip.fw.rom = false
  handover : s.chip.fw.handover = false
  info : ∃ i, opInfo op = some i ∧ mayIssue i mb = true ∧ (halted s.chip = true → i.served = true)
  factory : mb = 1027 → s.otp.locked = false
  header : cb cmd 4 12 = 0 ∧ (officerOf mb = none → cb cmd 0x70 16 = 0)
  tenant : mb < 1024 → tenantRefusal s.chip mb op = none
  officer : ∀ o, officerOf mb = some o → AuthVerifies s o cmd

/-- The state in which the command's own part runs: its slot EXECUTING, the turn passed on, the BLOB words taken, and on an
officer page what has run out ended, the challenge consumed and the count of failures restarted. -/
def started (s : State) (mb slot : Nat) : State :=
  let m := getMb s.chip mb
  let sl := Tbl.get {} m.slots slot
  let taken := takesBlob (cOpcode sl.cmd)
  let m := { m with
    order := m.order.tail
    slots := Tbl.set {} m.slots slot { sl with st := .executing }
    blob := if taken then [] else m.blob
    newKey := if cOpcode sl.cmd = 0x0C05 && (officerOf mb).isSome then keyDataBytes m 4 else m.newKey }
  let ch := timesEnded (takeTurn (setMb s.chip mb m) mb) mb
  match officerOf mb with
  | none => { s with chip := ch }
  | some o =>
    let ch := consumeChallenge ch o
    { s with chip := setOfficer ch o { getOfficer ch o with fails := 0 } }

/-- What Quince holds of the command while it executes. -/
def executing (s : State) (mb slot : Nat) : Executing :=
  let x : Executing := { mb := mb, slot := slot, wait := .flush 0, chal := none, ccount := 0, dropped := false }
  match officerOf mb with
  | none => x
  | some o =>
    let f := getOfficer s.chip o
    { x with ccount := f.count, chal := some (challengeOf f, !f.enrolled) }

/-- What the command's own part is given. -/
def callOf (s : State) (mb slot : Nat) : Call :=
  let m := getMb s.chip mb
  let cmd := (Tbl.get {} m.slots slot).cmd
  let x := executing s mb slot
  { mb := mb, slot := slot, cmd := cmd, blob := if takesBlob (cOpcode cmd) then m.blob else [], chal := x.chal
    ccount := x.ccount
    fails := match officerOf mb with
      | some o => (getOfficer (lockoutOver s.chip o) o).fails
      | none => 0 }

/-- The state `t` with the response of the command that `s` had at the head of the mailbox (R243, R245). -/
def answered (s : State) (mb slot : Nat) (t : State) (r : Reply) : State :=
  { t with chip := writeResponse t.chip (executing s mb slot) r }

/-- The state `t` in which the command executes on, waiting for `w`. -/
def waiting (s : State) (mb slot : Nat) (t : State) (w : Wait) : State :=
  { t with chip := { t.chip with quince := { t.chip.quince with exec := some { executing s mb slot with wait := w } } } }

/-! ### What a response holds (Table 11.6) -/

def slotOf (s : State) (mb slot : Nat) : MbSlot := Tbl.get {} (getMb s.chip mb).slots slot

/-- `n` bytes of the response in a slot, from a byte offset of Table 11.6. -/
def respAt (s : State) (mb slot off n : Nat) : Nat := bytesAt (slotOf s mb slot).resp.toNat off n

/-- The slot is DONE with a response of STATUS and DETAIL to its command. -/
structure Responded (s : State) (mb slot : Nat) (status detail : Nat) : Prop where
  done : (slotOf s mb slot).st = .done
  opcode : respAt s mb slot 0 2 = cOpcode (slotOf s mb slot).cmd
  ctag : respAt s mb slot 2 2 = cb (slotOf s mb slot).cmd 2 2
  status : respAt s mb slot 4 1 = status
  detail : respAt s mb slot 5 1 = detail

/-! ### One part of the chip changed, and nothing else -/

/-- Of the parts that `get` reads, part `k` is now `v` and the others are as they were. -/
structure OnlyAt {α : Type} (get : Chip → Nat → α) (a b : Chip) (k : Nat) (v : α) : Prop where
  here : get b k = v
  others : ∀ j, j ≠ k → get b j = get a j

/-- Stream port `p` is now `v`; everything else is as it was. -/
def PortNow (a b : Chip) (p : Nat) (v : Port) : Prop := OnlyAt getPort a b p v ∧ b = { a with ports := b.ports }

/-- Cluster `c` is now `v`; everything else is as it was. -/
def ClusterNow (a b : Chip) (c : Nat) (v : Cluster) : Prop :=
  OnlyAt getCluster a b c v ∧ b = { a with clusters := b.clusters }

/-- Line port `p` is now `v`; everything else is as it was. -/
def LineNow (a b : Chip) (p : Nat) (v : LinePort) : Prop := OnlyAt getLine a b p v ∧ b = { a with lines := b.lines }

/-- Line port `p` is now `v` and the others are as they were, but for the marks that a window which becomes pending puts on the
requests that wait for their lookup (R214). -/
def LineAt (a b : Chip) (p : Nat) (v : LinePort) : Prop :=
  ∀ k, let w := if k = p then v else getLine a k
    { getLine b k with fq := [] } = { w with fq := [] } ∧
    (getLine b k).fq.map (fun x => (x.lane, x.req)) = w.fq.map (fun x => (x.lane, x.req))

/-- Mailbox page `m` is now `v`; everything else is as it was. -/
def MbNow (a b : Chip) (m : Nat) (v : Mailbox) : Prop := OnlyAt getMb a b m v ∧ b = { a with mbs := b.mbs }

/-- Tenant `t` is now `v`; everything else is as it was. -/
def TenantNow (a b : Chip) (t : Nat) (v : Tenant) : Prop := OnlyAt getTenant a b t v ∧ b = { a with tenants := b.tenants }

/-- Live range `j` is now `v`; everything else is as it was. -/
def RangeNow (a b : Chip) (j : Nat) (v : Option Range) : Prop :=
  OnlyAt getRange a b j v ∧ b = { a with ranges := b.ranges }

/-- Line rekey job `j` is now `v`; everything else is as it was. -/
def LjobNow (a b : Chip) (j : Nat) (v : Option LineJob) : Prop :=
  OnlyAt getLjob a b j v ∧ b = { a with ljobs := b.ljobs }

/-- The sweep of region `r` is now `v`, with its inverse (R391); everything else is as it was. -/
def SweepNow (a b : Chip) (r : Nat) (v : Sweep) : Prop :=
  OnlyAt getSweep a b r v ∧ b = { a with sweeps := b.sweeps, sweepsInv := (setSweep a r v).sweepsInv }

/-- The descriptor of key slot `k` is now `d`, with its inverse (R391); everything else is as it was. -/
def DescNow (a b : Chip) (k : Nat) (d : BitVec 256) : Prop :=
  OnlyAt slotDesc a b k d ∧
    b = { a with keys := { a.keys with desc := b.keys.desc, descInv := (setDesc a k d).keys.descInv } }

/-- The descriptor of line key entry `e` is now `d`, with its inverse (R391); everything else is as it was. -/
def LineDescNow (a b : Chip) (e : Nat) (d : BitVec 128) : Prop :=
  OnlyAt lineDesc a b e d ∧
    b = { a with keys := { a.keys with ldesc := b.keys.ldesc, ldescInv := (setLineDesc a e d).keys.ldescInv } }

/-! ### What no run undoes -/

/-- One-time-programmable state only gains: fuses stay blown, counters do not fall, and neither a written slot of the tamper
log nor an owner root changes (R135, R324, R150, R393 to R395, R438). -/
structure OtpGrows (a b : Otp) : Prop where
  killed : a.killed &&& b.killed = a.killed
  locked : a.locked = true → b.locked = true
  disabled : a.disabled &&& b.disabled = a.disabled
  svn : a.svn ≤ b.svn
  journal : a.journalGen ≤ b.journalGen
  tamper : a.tamper ≤ b.tamper
  log : a.log <+: b.log
  roots : a.roots <+: b.roots

/-- Both flash devices hold their contents in the one canonical form. -/
def FlashCanonical (s : State) : Prop :=
  Tbl.wf (BitVec.allOnes 2048) s.flash0 = true ∧ Tbl.wf (BitVec.allOnes 2048) s.flash1 = true

end Sys2Proof.Machine
end

