-- ==== Sys2Proof/Certificates/Slice0/Obligations.lean ====
section
/-! DEFINITION. The statements for the provers, family by family: the block's interface, the stream plane, coding, counters and
flash, keys, lines, ranges, the control port, tenants, faults, the boundary, power and boot, then the commands by group, and the
statements over every step. -/

open Sys2Proof Sys2Proof.Machine

/-- A step takes the command at the front of the queue and gives it its effect on everything else, with the queue's
rest. -/
def Obligations.StepRunsFront : Prop :=
  ∀ (c : Instr) (rest : List Instr) (s : State), s.pending = c :: rest → step s = exec c { s with pending := rest }

/-- The model's choice (log entry 1): on an empty queue one tick of the clock passes, one core cycle of a powered
chip with the gap, stall and token timers of its ports, and neither OTP nor flash nor the queue changes. -/
def Obligations.EmptyQueueTicks : Prop :=
  ∀ (s : State), s.pending = [] →
    ∃ t, step s = .next t ∧ t.otp = s.otp ∧ t.flash0 = s.flash0 ∧ t.flash1 = s.flash1 ∧ t.pending = [] ∧
      (s.chip.powered = false → t.chip = s.chip) ∧
      (s.chip.powered = true → t.chip.cycle = s.chip.cycle + 1 ∧ t.chip.clusters = s.chip.clusters ∧
        t.chip.keys = s.chip.keys ∧ t.chip.cfg = s.chip.cfg ∧
        (∀ p, halted s.chip = false → (getPort s.chip p).st = .enabled → ∀ c,
          let ic := Quad.get (getPort s.chip p).ing c
          (Quad.get (getPort t.chip p).ing c).gap =
            (if ic.run ≠ .idle ∧ ic.run ≠ .discard ∧ ic.unspent ≠ 0 then ic.gap + 1 else ic.gap)) ∧
        (∀ p, halted s.chip = false → (getPort s.chip p).st = .enabled → ∀ c,
          Quad.get (getPort t.chip p).stall c =
            (if classReady (getPort s.chip p) c = true ∧ Quad.get (getPort s.chip p).credit c = 0 then
              Quad.get (getPort s.chip p).stall c + 1 else Quad.get (getPort s.chip p).stall c)) ∧
        (∀ p, halted s.chip = false → (getPort s.chip p).st = .enabled →
          (getPort t.chip p).tokens =
            min ((getPort s.chip p).tokens + cl0Rate s.chip.cfg p) (256 * cl0Burst s.chip.cfg p)))

/-- INGRESS_FLIT (R32, R44, R45, R51, R53, R54, R55, R355) completes on every powered chip: what a flit does to its
port by the state of the port and of its class. The model's choices that it rests on: log entries 8, 21, 126. -/
def Obligations.IngressFlitOnPort : Prop :=
  ∀ (p : Fin 64) (f : IngressFlit) (s : State), s.chip.powered = true →
    let pt := { getPort s.chip p with piClk := true }
    let ic := Quad.get pt.ing f.cls
    let with_ (ic' : IngClass) : Port := { pt with lastIn := f.head, ing := Quad.set pt.ing f.cls ic' }
    let new : IMsg := { no := pt.nextHead, sb := f.sb, spacing := pt.lastIn && f.consec, data := [f.data], tail := f.tail }
    let ends (w : IMsg) (st dt : Nat) : IMsg := { w with tail := true, ending := some (st, dt) }
    -- a head that waits, and one that PI_ABORT with PI_TAIL ends at once
    let heads (x : Port) : Port := { x with nextHead := pt.nextHead + 1 }
    let opened : IngClass := { ic with
      unspent := ic.unspent - 1, gap := 0, run := if f.tail then .idle else .waiting, waiting := ic.waiting ++ [new] }
    let cut : IngClass := { ic with
      pulses := ic.pulses + 1, gap := 0, run := .idle, waiting := ic.waiting ++ [{ ends new stAborted 0x42 with data := [] }] }
    -- the flits of a message that is thrown away, whose STATUS leaves with its end
    let thrown (b : Chip) (due : Port → Port) : Prop :=
      (f.head = false → f.tail = false → f.abort = false →
        PortNow s.chip b p (with_ { ic with pulses := ic.pulses + 1, gap := 0 })) ∧
      (f.head = false → f.tail = true →
        PortNow s.chip b p (due (with_ { ic with pulses := ic.pulses + 1, gap := 0, run := .idle }))) ∧
      (f.head = true → f.abort = false → PortNow s.chip b p (due (heads (with_ opened)))) ∧
      (f.head = true → f.abort = true → f.tail = true → PortNow s.chip b p (due (heads (with_ cut))))
    ∃ b, exec (.ingressFlit p f) s = .next { s with chip := b } ∧
      (halted s.chip = true ∨ pt.st = .fenced → PortNow s.chip b p pt) ∧
      (halted s.chip = false → pt.st = .disabled →
        PortNow s.chip b p { pt with orphan := min 65535 (pt.orphan + 1) }) ∧
      (halted s.chip = false → pt.st = .enabled → ic.unspent = 0 →
        (getPort b p).st = .fenced ∧ (getPort b p).cause = 1 ∧ (getPort b p).reqs = [] ∧ (getPort b p).msgs = [] ∧
          (getPort b p).overrun = min 65535 (pt.overrun + 1)) ∧
      (halted s.chip = false → pt.st = .enabled → 0 < ic.unspent →
        -- no message of the class is open: an orphan, whose credit returns
        (ic.run = .idle → f.head = false ∨ f.abort = true →
          PortNow s.chip b p { with_ { ic with pulses := ic.pulses + 1 } with orphan := min 65535 (pt.orphan + 1) }) ∧
        -- PI_ABORT without PI_TAIL is an orphan too
        (f.abort = true → f.tail = false →
          PortNow s.chip b p { with_ { ic with pulses := ic.pulses + 1 } with orphan := min 65535 (pt.orphan + 1) }) ∧
        -- a head opens a message, which waits for admission
        (ic.run = .idle ∨ ic.run = .discard → f.head = true → f.abort = false →
          PortNow s.chip b p (heads (with_ opened))) ∧
        -- a head while a message waits ends that one, and opens another
        (∀ older w, ic.run = .waiting → ic.waiting = older ++ [w] → f.head = true → f.abort = false →
          PortNow s.chip b p { with_ { ic with
            unspent := ic.unspent - 1, gap := 0, run := if f.tail then .idle else .waiting
            waiting := older ++ [ends w stLenMismatch 0x40, new] } with nextHead := pt.nextHead + 1 }) ∧
        -- a later flit of a message that waits
        (∀ older w, ic.run = .waiting → ic.waiting = older ++ [w] → f.head = false → f.abort = false →
          PortNow s.chip b p (with_ { ic with
            unspent := ic.unspent - 1, gap := 0, run := if f.tail then .idle else .waiting
            waiting := older ++ [{ w with data := w.data ++ [f.data], tail := f.tail }] })) ∧
        -- PI_ABORT with PI_TAIL ends a message that waits
        (∀ older w, ic.run = .waiting → ic.waiting = older ++ [w] → f.abort = true → f.tail = true →
          PortNow s.chip b p (with_ { ic with
            pulses := ic.pulses + 1, gap := 0, run := .idle, waiting := older ++ [ends w stAborted 0x42] })) ∧
        -- a discard runs up to and including the next tail
        (ic.run = .discard → f.head = false → f.abort = false →
          PortNow s.chip b p (with_ { ic with
            pulses := ic.pulses + 1, run := if f.tail then .idle else .discard })) ∧
        (ic.run = .discard → f.head = false → f.abort = true → f.tail = true →
          PortNow s.chip b p (with_ { ic with pulses := ic.pulses + 1, run := .idle })) ∧
        (ic.run = .discard → f.head = true → f.abort = true → f.tail = true →
          PortNow s.chip b p (heads (with_ cut))) ∧
        -- a rejected message is discarded up to its tail, and its STATUS then follows
        (∀ sb st dt k g, ic.run = .rejected sb st dt k g → thrown b fun x => { x with
          nextRid := pt.nextRid + 1
          msgs := pt.msgs ++ [{ rid := pt.nextRid, sb := sb, cls := f.cls, kind := 2, shard := sbShard sb, last := true
                                tail := some (st, dt), keyidx := k, kgen := g }] }) ∧
        -- a message that has ended is discarded up to its tail, and its STATUS is then due
        (∀ rid, ic.run = .ended rid → thrown b fun x => { x with
          msgs := pt.msgs.map fun m => if m.rid = rid ∧ m.kind = 2 then { m with ready := true } else m }))

/-- INGRESS_FLIT on an admitted message (R24, R34, R51, R67): while the tail comes on flit F and nowhere else, the
flit waits for the forward input of the serving cluster, or for the Currant for DECODE and REBUILD, cut to the payload;
its credit does not return yet. A tail elsewhere ends the request with ST_LEN_MISMATCH and DETAIL 0x40; a bad prefix ends it with
ST_BAD_FIELD and DETAIL 0x50, and its STATUS leaves once the message's tail has come. -/
def Obligations.IngressFlitAdmitted : Prop :=
  ∀ (p : Fin 64) (f : IngressFlit) (s : State) (rid : Nat) (q : Req), s.chip.powered = true → halted s.chip = false →
    let pt := { getPort s.chip p with piClk := true, lastIn := false }
    let ic := Quad.get pt.ing f.cls
    pt.st = .enabled → 0 < ic.unspent → ic.run = .admitted rid → findReq pt rid = some q →
    f.head = false → f.abort = false →
    let bytes := (bvBytes 256 f.data).take (min 256 (q.payload - 256 * q.arrived))
    let pt' := { pt with
      ing := Quad.set pt.ing f.cls { ic with
        unspent := ic.unspent - 1, gap := 0, run := if f.tail then .idle else .admitted rid }
      reqs := modifyFirst (fun r => decide (r.rid = rid)) (fun r => { r with arrived := r.arrived + 1 }) pt.reqs }
    let undriven : Prop := q.dead = false ∧ q.holdSent = 0 ∧ ∀ m ∈ pt.msgs, m.rid = rid → m.headDriven = false
    let endsWith (b : Chip) (m : EMsg) (run : IngRun) : Prop :=
      (getPort b p).msgs.filter (fun m => decide (m.rid = rid)) = [m] ∧
      (∃ q', findReq (getPort b p) rid = some q' ∧ q'.dead = true) ∧ (Quad.get (getPort b p).ing f.cls).run = run
    ∃ b, exec (.ingressFlit p f) s = .next { s with chip := b } ∧
      (f.tail = decide (q.arrived + 1 = q.flits) → (q.arrived = 0 → badPrefix q (bvBytes 256 f.data) = false) →
        (sbOp q.sb ≠ 4 → sbOp q.sb ≠ 6 →
          OnlyAt getPort s.chip b p pt' ∧
          OnlyAt getCluster s.chip b q.cluster { getCluster s.chip q.cluster with
            fwdIn := (getCluster s.chip q.cluster).fwdIn ++
              [{ port := p, rid := q.rid, cls := q.cls, order := q.order, bytes := bytes, queued := true }] } ∧
          b = { s.chip with ports := b.ports, clusters := b.clusters }) ∧
        (sbOp q.sb = 4 ∨ sbOp q.sb = 6 →
          PortNow s.chip b p { pt' with cur := { pt.cur with
            fromAdmission := pt.cur.fromAdmission ++
              [{ rid := q.rid, cls := q.cls, fromReturn := false, pos := 0, off := 256 * q.arrived, bytes := bytes }] } })) ∧
      (f.tail = decide (q.arrived + 1 = q.flits) → q.arrived = 0 → badPrefix q (bvBytes 256 f.data) = true → undriven →
        endsWith b { statusMsg q stBadField 0x50 with ready := f.tail } (if f.tail then .idle else .ended rid)) ∧
      (f.tail ≠ decide (q.arrived + 1 = q.flits) → undriven →
        endsWith b (statusMsg q stLenMismatch 0x40) (if f.tail then .idle else .discard))

/-- EGRESS_CREDIT, PORT_STALL_EVENT and PORT_STALL_FENCE (R46, R47, R55): a pulse on a port that is not disabled adds
one credit up to 4,095 and restarts the stall timer of its class; one beyond is counted and reported as kind 0x12. At
20 µs the event 0x0101 is recorded, once for a stall; at 200 µs the port is fenced; before that nothing happens. The
model's choices that it rests on: log entry 8. -/
def Obligations.EgressCreditAndStall : Prop :=
  ∀ (p : Fin 64) (c : Fin 4) (s : State), s.chip.powered = true →
    let old := getPort s.chip p
    let pt := { old with peClk := true }
    let live := { pt with stall := Quad.set pt.stall c 0, stalled := Quad.set pt.stalled c false }
    -- EGRESS_CREDIT
    (pt.st = .disabled → ∃ b, exec (.egressCredit p c) s = .next { s with chip := b } ∧ PortNow s.chip b p pt) ∧
    (pt.st ≠ .disabled → Quad.get pt.credit c < 4095 → ∃ b, exec (.egressCredit p c) s = .next { s with chip := b } ∧
      PortNow s.chip b p { live with credit := Quad.set pt.credit c (Quad.get pt.credit c + 1) }) ∧
    (pt.st ≠ .disabled → 4095 ≤ Quad.get pt.credit c → ∃ a,
      exec (.egressCredit p c) s = .next { s with chip := raise a (0xA200 + p) 0x12 (ctxPlain 0) } ∧
      PortNow s.chip a p { live with ecredit := min 65535 (pt.ecredit + 1) }) ∧
    -- PORT_STALL_EVENT
    (old.st = .enabled → 20 * usCycles s.chip ≤ Quad.get old.stall c → Quad.get old.stalled c = false →
      ∃ a, exec (.portStallEvent p c) s = .next { s with chip := event a 0x0101 0 none [(p, 6), (c.val, 2)] } ∧
        PortNow s.chip a p { old with stalled := Quad.set old.stalled c true }) ∧
    (old.st ≠ .enabled ∨ Quad.get old.stall c < 20 * usCycles s.chip ∨ Quad.get old.stalled c = true →
      exec (.portStallEvent p c) s = .next s) ∧
    -- PORT_STALL_FENCE
    (old.st = .enabled → 200 * usCycles s.chip ≤ Quad.get old.stall c →
      ∃ b, exec (.portStallFence p c) s = .next { s with chip := b } ∧ (getPort b p).st = .fenced ∧
        (getPort b p).cause = 2 ∧ (getPort b p).reqs = [] ∧ (getPort b p).msgs = [] ∧ (getPort b p).pe = {} ∧
        (∀ k, (Quad.get (getPort b p).ing k).waiting = [] ∧ Quad.get (getPort b p).stall k = 0) ∧
        b.cfg = s.chip.cfg ∧ b.tenants = s.chip.tenants ∧ b.lines = s.chip.lines ∧
        (∀ q, q ≠ p.val → getPort b q = getPort s.chip q)) ∧
    (old.st ≠ .enabled ∨ Quad.get old.stall c < 200 * usCycles s.chip → exec (.portStallFence p c) s = .next s)

/-- CLOCK_LOSS (R18): a clock that was present reads absent, and the port reports kind 0x13 under its own ID; nothing
else changes. FLIT_GAP_TIMEOUT (R52): once the timer has reached FLIT_GAP × 0.25 µs the open message ends with
ST_TIMEOUT and DETAIL 0x41, and its class discards up to the next tail; a message still waiting leaves the queue, its
credits return, and it takes no token; before that, and with no message open, nothing happens. The model's choices
that it rests on: log entries 54, 118. -/
def Obligations.PortEvents : Prop :=
  (∀ (s : State), s.chip.powered = true →
     (∀ p : Fin 64,
       ((getPort s.chip p).piClk = true → ∃ a,
         exec (.clockLoss (.ingress p)) s = .next { s with chip := raise a (0xA200 + p) 0x13 (ctxPlain 0) } ∧
           PortNow s.chip a p { getPort s.chip p with piClk := false }) ∧
       ((getPort s.chip p).piClk = false → exec (.clockLoss (.ingress p)) s = .next s)) ∧
     (∀ p : Fin 64,
       ((getPort s.chip p).peClk = true → ∃ a,
         exec (.clockLoss (.egress p)) s = .next { s with chip := raise a (0xA200 + p) 0x13 (ctxPlain 0) } ∧
           PortNow s.chip a p { getPort s.chip p with peClk := false }) ∧
       ((getPort s.chip p).peClk = false → exec (.clockLoss (.egress p)) s = .next s)) ∧
     (∀ p : Fin 32,
       ((getLine s.chip p).clk = true → ∃ a,
         exec (.clockLoss (.line p)) s = .next { s with chip := raise a (0xA600 + p) 0x13 (ctxPlain 0) } ∧
           LineNow s.chip a p { getLine s.chip p with clk := false }) ∧
       ((getLine s.chip p).clk = false → exec (.clockLoss (.line p)) s = .next s))) ∧
  (∀ (p : Fin 64) (c : Fin 4) (s : State), s.chip.powered = true →
     let pt := getPort s.chip p
     let ic := Quad.get pt.ing c
     let status (sb : Sideband) (st dt k g : Nat) : EMsg :=
       { rid := pt.nextRid, sb := sb, cls := c, kind := 2, shard := sbShard sb, last := true
         tail := some (st, dt), keyidx := k, kgen := g }
     (halted s.chip = true ∨ pt.st ≠ .enabled ∨ 4 * ic.gap < s.chip.flitGap * usCycles s.chip ∨ ic.run = .idle ∨
         ic.run = .discard →
       exec (.flitGapTimeout p c) s = .next s) ∧
     (halted s.chip = false → pt.st = .enabled → s.chip.flitGap * usCycles s.chip ≤ 4 * ic.gap →
       (∀ older w, ic.run = .waiting → ic.waiting = older ++ [w] →
         ∃ b, exec (.flitGapTimeout p c) s = .next { s with chip := b } ∧ PortNow s.chip b p { pt with
           ing := Quad.set pt.ing c { ic with
             waiting := older, run := .discard, gap := 0, unspent := ic.unspent + w.data.length
             pulses := ic.pulses + w.data.length }
           nextRid := pt.nextRid + 1
           msgs := pt.msgs ++ [status w.sb stTimeout 0x41 (sbNamed w.sb).1 (sbNamed w.sb).2] }) ∧
       (∀ sb st dt k g, ic.run = .rejected sb st dt k g →
         ∃ b, exec (.flitGapTimeout p c) s = .next { s with chip := b } ∧ PortNow s.chip b p { pt with
           ing := Quad.set pt.ing c { ic with run := .discard, gap := 0 }
           nextRid := pt.nextRid + 1
           msgs := pt.msgs ++ [status sb st dt k g] }) ∧
       (∀ rid, ic.run = .ended rid →
         ∃ b, exec (.flitGapTimeout p c) s = .next { s with chip := b } ∧ PortNow s.chip b p { pt with
           ing := Quad.set pt.ing c { ic with run := .discard, gap := 0 }
           msgs := pt.msgs.map fun m => if m.rid = rid ∧ m.kind = 2 then { m with ready := true } else m }) ∧
       (∀ rid q, ic.run = .admitted rid → findReq pt rid = some q → q.dead = false → q.holdSent = 0 →
         (∀ m ∈ pt.msgs, m.rid = rid → m.headDriven = false) →
         ∃ b, exec (.flitGapTimeout p c) s = .next { s with chip := b } ∧
           (getPort b p).msgs.filter (fun m => decide (m.rid = rid)) = [statusMsg q stTimeout 0x41] ∧
           (∃ q', findReq (getPort b p) rid = some q' ∧ q'.dead = true) ∧
           (Quad.get (getPort b p).ing c).run = .discard)))

/-- ADMISSION (R48, R49, R50, R116): the oldest head of a pool, once nothing makes it wait, leaves the queue with its
credits. The first check of Table 2.9 that fails gives its STATUS, at once or once the message's tail has come; a
message that passes takes a context entry under the configuration generation and the tenant epoch of the moment, and
class 0 pays its tokens; that it is the lowest free entry is the model's choice (log entry 169). A slot that has more
than 8 bad bytes rejects it with ST_KEY_STALE, DETAIL 0x32. A head whose descriptor disagrees with its inverted copy
waits, and FK_SHADOW names the slot (R392). The model's choices that it rests on: log entries 54, 147, 169. -/
def Obligations.AdmissionJudges : Prop :=
  ∀ (p : Fin 64) (c : Fin 4) (bad : List (Fin 1048576 × Fin 80)) (s : State) (w : IMsg) (rest : List IMsg),
    s.chip.powered = true → halted s.chip = false →
    let pt := getPort s.chip p
    let ic := Quad.get pt.ing c
    pt.st = .enabled → ic.waiting = w :: rest →
    -- the copies of its descriptor disagree
    (∀ x, headClash s.chip p c w = some x → rest = [] →
      exec (.admission p c bad) s = .next { s with chip := raiseShadow s.chip x }) ∧
    ((∀ v ∈ ic.waiting, headClash s.chip p c v = none) → queueWaits s.chip p w = false →
    let rejected (st dt : Nat) (kg : Nat × Nat) : Prop :=
      let ic' := { ic with
        waiting := rest, unspent := ic.unspent + w.data.length, pulses := ic.pulses + w.data.length }
      ∃ b, exec (.admission p c bad) s = .next { s with chip := b } ∧
        (ic.run = .waiting → rest = [] →
          PortNow s.chip b p { pt with ing := Quad.set pt.ing c { ic' with run := .rejected w.sb st dt kg.1 kg.2 } }) ∧
        (ic.run ≠ .waiting ∨ rest ≠ [] →
          PortNow s.chip b p { pt with
            ing := Quad.set pt.ing c ic', nextRid := pt.nextRid + 1
            msgs := pt.msgs ++ [{ rid := pt.nextRid, sb := w.sb, cls := c, kind := 2, shard := sbShard w.sb, last := true
                                  tail := some (st, dt), keyidx := kg.1, kgen := kg.2 }] })
    -- a head that must wait, alone in its pool
    (judgeHead s.chip p c w = .wait → rest = [] → exec (.admission p c bad) s = .next s) ∧
    -- checks 1 to 18, on a head with its token whose record and egress flit can be reserved
    (∀ st dt, (c = 0 → 256 ≤ pt.tokens) → recordFree pt c = true → headChecks s.chip p c w = some (st, dt) →
      rejected st dt (0, 0)) ∧
    -- checks 19 to 25, which name the slot
    (∀ st dt, judgeHead s.chip p c w = .reject st dt true → rejected st dt (sbNamed w.sb)) ∧
    -- a slot is lost as it is read
    (∀ uses new job cl, judgeHead s.chip p c w = .enter uses new job cl →
      (∃ k ∈ enterSlots uses new, 8 < ((bad.filter fun x => x.1.val = k).map (·.2)).eraseDups.length) →
      ic.run = .waiting → rest = [] →
      ∃ b, exec (.admission p c bad) s = .next { s with chip := b } ∧ (getPort b p).reqs.length = pt.reqs.length ∧
        (Quad.get (getPort b p).ing c).run = .rejected w.sb stKeyStale 0x32 (sbNamed w.sb).1 (sbNamed w.sb).2 ∧
        b.cfg = s.chip.cfg) ∧
    -- the message is admitted
    (∀ uses new job cl, judgeHead s.chip p c w = .enter uses new job cl →
      (∀ k ∈ enterSlots uses new, ((bad.filter fun x => x.1.val = k).map (·.2)).eraseDups.length ≤ 8) →
      ∃ b q, exec (.admission p c bad) s = .next { s with chip := b } ∧
        (getPort b p).reqs.getLast? = some q ∧ (getPort b p).reqs.length = pt.reqs.length + 1 ∧
        (getPort b p).nextRid = pt.nextRid + 1 ∧
        q.rid = pt.nextRid ∧ q.sb = w.sb ∧ q.cls = c ∧ q.cluster = cl ∧
        q.gen = s.chip.admitGen ∧ q.epoch = (getTenant s.chip (sbTenant w.sb)).epoch ∧ q.uses = uses ∧
        q.ctx < 4096 ∧ (∀ r ∈ pt.reqs, r.ctx ≠ q.ctx) ∧ (∀ i, i < q.ctx → ∃ r ∈ pt.reqs, r.ctx = i) ∧
        (c = 0 → (getPort b p).tokens = pt.tokens - 256 * q.flits) ∧
        (c ≠ 0 → (getPort b p).tokens = pt.tokens) ∧
        b.cfg = s.chip.cfg ∧ b.tenants = s.chip.tenants ∧ (∀ r, r ≠ p.val → getPort b r = getPort s.chip r)))

/-- EGRESS_FLIT_DRIVE (R32, R33, R43, R46, R54, R93): a port that cannot drive, or has nothing that may leave, drives
every output low; else one flit of the lowest class that has a ready flit and a credit leaves, reports of a fence
first, no head after a head, no head of a lower class in the cycle before a class-0 head, and one credit of its class
is spent. The model's choices that it rests on: log entries 35, 54, 118. -/
def Obligations.EgressDrives : Prop :=
  ∀ (p : Fin 64) (s : State), s.chip.powered = true →
    let pt := getPort s.chip p
    let coming := headComing s.chip p
    let idle : Prop := ∃ b, exec (.egressFlitDrive p) s = .next { s with chip := b } ∧
      PortNow s.chip b p { pt with pe := {}, lastHead := false }
    (egressOn s.chip pt = false → idle) ∧
    (egressOn s.chip pt = true → pt.recs = [] → egressPick pt coming = none → idle) ∧
    (∀ r rest, egressOn s.chip pt = true → pt.recs = r :: rest → Quad.get pt.credit r.cls = 0 → idle) ∧
    -- the STATUS of a report
    (∀ r rest, egressOn s.chip pt = true → pt.recs = r :: rest → 0 < Quad.get pt.credit r.cls → r.zf ≤ r.zsent →
      (pt.lastHead = true → idle) ∧
      (pt.lastHead = false → ∃ b pe, exec (.egressFlitDrive p) s = .next { s with chip := b } ∧
        PortNow s.chip b p { pt with
          recs := rest, pe := pe, lastHead := true, credit := Quad.set pt.credit r.cls (Quad.get pt.credit r.cls - 1) } ∧
        pe.valid = true ∧ pe.head = true ∧ pe.tail = true ∧ pe.zf = false ∧ pe.cls = r.cls ∧
        pe.tsb = mkTsb r.status r.detail (sbCookie r.sb) 0 r.kgen r.keyidx r.epoch)) ∧
    -- the ZERO_FILL of a report
    (∀ r rest, egressOn s.chip pt = true → pt.recs = r :: rest → 0 < Quad.get pt.credit r.cls → r.zsent < r.zf →
      (r.zsent = 0 → pt.lastHead = false) →
      ∃ b pe, exec (.egressFlitDrive p) s = .next { s with chip := b } ∧
        PortNow s.chip b p { pt with
          recs := { r with zsent := r.zsent + min 256 (r.zf - r.zsent) } :: rest, pe := pe
          lastHead := decide (r.zsent = 0), credit := Quad.set pt.credit r.cls (Quad.get pt.credit r.cls - 1) } ∧
        pe.valid = true ∧ pe.zf = true ∧ pe.cls = r.cls ∧ pe.data = 0 ∧ pe.head = decide (r.zsent = 0) ∧
        pe.tail = decide (r.zf ≤ r.zsent + 256)) ∧
    -- a message
    (∀ m, egressOn s.chip pt = true → pt.recs = [] → egressPick pt coming = some m →
      0 < Quad.get pt.credit m.cls ∧ classNext pt m.cls = some m ∧
      (m.headDriven = false → pt.lastHead = false ∧ (coming = true → m.cls = 0)) ∧
      (∀ c : Fin 4, c < m.cls → Quad.get pt.credit c = 0 ∨ classNext pt c = none ∨
        ∃ m', classNext pt c = some m' ∧ headBlocked pt coming m' = true) ∧
      ∃ b, exec (.egressFlitDrive p) s = .next { s with chip := b } ∧
        (getPort b p).credit = Quad.set pt.credit m.cls (Quad.get pt.credit m.cls - 1) ∧
        (getPort b p).pe.valid = true ∧ (getPort b p).pe.cls = m.cls ∧ (getPort b p).pe.head = !m.headDriven ∧
        (getPort b p).pe.hold = m.hold ∧ (getPort b p).pe.zf = decide (m.kind = 3) ∧
        (getPort b p).lastHead = !m.headDriven ∧
        (∀ q, q ≠ p.val → getPort b q = getPort s.chip q) ∧ b.cfg = s.chip.cfg ∧ b.tenants = s.chip.tenants ∧
        b.lines = s.chip.lines)

/-- FLIT_ISSUE (R88, R89, R91, R361, R362): a cluster that cannot run, or owes a retry cycle, does nothing. In any
other cycle its forward input grants one flit that may enter, class 0 into a free class-0 slot first, and the credit of
one that waited in the ingress queue returns; the issue stage advances one
flit, class 0 first, by as many blocks as slices are active; blocks that fail their check wait for their retry, with
one message for each; a whole flit joins its request's processed payload; and its return input grants one output.
BLOCK_RETRY (R362): failed blocks are computed again on the slices that the rule gives; those that still fail wait
for the next retry, and with a block that has failed on three slices the flit is held while the cluster raises kind
0x09, which names the tenant. The model's choices that it rests on: log entries 31, 124, 127, 146, 152, 154, 156. -/
def Obligations.ClusterIssues : Prop :=
  (∀ (cl : Fin 64) (ch : Chip),
     let x := getCluster ch cl
     let got := grantIdx x.fwdLast (x.fwdIn.map fun f => (f.port, f.cls, mayEnter ch cl f))
     (got = none → forwardGrant ch cl = ch) ∧
     (∀ i f, got = some i → x.fwdIn[i]? = some f →
       ((∃ g ∈ x.fwdIn, g.cls = 0 ∧ mayEnter ch cl g = true) → f.cls = 0) ∧
       (f.cls = 0 → slotsUsed x < cl0Slots ch.cfg cl) ∧
       ClusterNow (if f.queued then modPort ch f.port fun pt => queueLeft pt f.cls 1 else ch) (forwardGrant ch cl) cl { x with
         fwdIn := x.fwdIn.eraseIdx i, staging := x.staging ++ [{ f with queued := false }]
         fwdLast := if f.cls = 0 then x.fwdLast else f.port })) ∧
  (∀ (cl : Fin 64) (fails : List BlockFail) (s : State), s.chip.powered = true →
     let A := forwardGrant s.chip cl
     let x := getCluster A cl
     let reported (a : Chip) (bad : List BlockFail) : Chip :=
       bad.foldl (fun ch b => raiseRound ch cl (servingSlice ch cl 0 b.lane) b.site) a
     (clusterRuns s.chip cl = false ∨ retryNeedsCycle s.chip cl = true → exec (.flitIssue cl fails) s = .next s) ∧
     (clusterRuns s.chip cl = true → retryNeedsCycle s.chip cl = false →
       (pickFlit A cl = none → exec (.flitIssue cl fails) s = .next { s with chip := returnGrant A cl }) ∧
       (∀ i turn deficit f, pickFlit A cl = some (i, turn, deficit) → x.staging[i]? = some f →
         let upTo := min 16 (f.done + activeStream A cl)
         let bad := fails.filter fun b => decide (f.done ≤ b.lane.val) && decide (b.lane.val < upTo)
         let stamps := if f.second = true then (x.secondAt.filter fun t => decide (A.cycle < t + 256)) ++ [A.cycle]
           else x.secondAt
         ((∃ g ∈ x.staging, g.cls = 0 ∧ g.second = false ∧ canIssue x g = true) → f.cls = 0) ∧
         (bad = [] → upTo < 16 → ∃ a, exec (.flitIssue cl fails) s = .next { s with chip := returnGrant a cl } ∧
           ClusterNow A a cl { x with
             turn := turn, deficit := deficit, secondAt := stamps, staging := x.staging.set i { f with done := upTo } }) ∧
         (bad ≠ [] → ∃ a,
           exec (.flitIssue cl fails) s = .next { s with chip := returnGrant (reported a bad) cl } ∧
           ClusterNow A a cl { x with
             turn := turn, deficit := deficit, secondAt := stamps, staging := x.staging.eraseIdx i
             retry := x.retry ++ [{ flit := { f with done := upTo }, turns := 0
                                    blocks := ((bad.map (·.lane)).eraseDups).map fun l => (l, [servingSlice A cl 0 l]) }] }) ∧
         (∀ q, bad = [] → upTo = 16 → f.second = false → findReq (getPort A f.port) f.rid = some q → q.dead = false →
           ∃ b q', exec (.flitIssue cl fails) s = .next { s with chip := b } ∧
             findReq (getPort b f.port) f.rid = some q' ∧ q'.buf = q.buf ++ f.bytes)))) ∧
  (∀ (cl : Fin 64) (fails : List BlockFail) (s : State), s.chip.powered = true →
     let owes := retryNeedsCycle s.chip cl
     let A := if owes then forwardGrant s.chip cl else s.chip
     let after (a : Chip) : Chip := if owes then returnGrant a cl else a
     let x := getCluster A cl
     (clusterRuns s.chip cl = false ∨ (getCluster s.chip cl).retry = [] → exec (.blockRetry cl fails) s = .next s) ∧
     (∀ r rest, clusterRuns s.chip cl = true → x.retry = r :: rest →
       let ran := retrySlices A cl r
       let bad := ran.filter fun b => fails.any fun f => decide (f.lane = b.1.1)
       let blocks := bad.map fun b => (b.1.1, (b.2 :: b.1.2).eraseDups)
       (bad = [] → r.flit.done ≠ 16 → ∃ a, exec (.blockRetry cl fails) s = .next { s with chip := after a } ∧
         ClusterNow A a cl { x with retry := rest, staging := r.flit :: x.staging }) ∧
       (∀ q, bad = [] → r.flit.done = 16 → r.flit.second = false →
         findReq (getPort A r.flit.port) r.flit.rid = some q → q.dead = false →
         ∃ b q', exec (.blockRetry cl fails) s = .next { s with chip := b } ∧
           findReq (getPort b r.flit.port) r.flit.rid = some q' ∧ q'.buf = q.buf ++ r.flit.bytes) ∧
       (bad ≠ [] → (∀ b ∈ blocks, b.2.length < 3) → ∃ a turns,
         exec (.blockRetry cl fails) s = .next { s with chip := after a } ∧
         getCluster a cl = { x with retry := { r with blocks := blocks, turns := turns } :: rest } ∧
         turns = (if (retryStandby A cl r).isSome then r.turns else r.turns + 1) ∧
         a = { A with clusters := a.clusters, faults := a.faults }) ∧
       ((∃ b ∈ blocks, 3 ≤ b.2.length) → ∃ a,
         exec (.blockRetry cl fails) s = .next { s with
           chip := after (raise a (0xA000 + cl) 0x09 (flitCtx A r.flit)) } ∧
         getCluster a cl = { x with retry := rest, stuck := x.stuck ++ [{ r.flit with done := 0 }] } ∧
         a = { A with clusters := a.clusters, faults := a.faults })))

/-- CURRANT_FLIT and CHECK_COLUMN_REPASS (R27, R98, R163, R173, R365, R366): of the flits that have room the return
half's goes first, but neither input waits twice in a row; a flit of an ENCODE adds its products to the accumulators
of the row its request is part of; one whose check column disagrees is kept for a second pass, with kind 0x05 naming
the lane, and adds nothing; a second disagreement discards its row. The model's choices that it rests on: log entry
31. -/
def Obligations.CurrantTakes : Prop :=
  ∀ (u : Fin 64) (upset : List LaneUpset) (s : State), s.chip.powered = true →
    let pt := getPort s.chip u
    let takes := currantRuns s.chip u || currantPasses s.chip u
    let fits := currantFits s.chip u
    let next := currantNext fits pt.cur
    (takes = false ∨ pt.cur.repass ≠ none ∨ next = none → exec (.currantFlit u upset) s = .next s) ∧
    (∀ f c, takes = true → pt.cur.repass = none → next = some (f, c) →
      let check := if currantPasses s.chip u then none else checkFlit s.chip u upset f
      (∀ g r h a, inputNext fits pt.cur.fromReturn = some (g, r) → inputNext fits pt.cur.fromAdmission = some (h, a) →
        f = if pt.cur.servedReturn then h else g) ∧
      (check = none → exec (.currantFlit u upset) s = .next { s with
        chip := currantTake (setPort s.chip u (takeInput pt c f)) u f }) ∧
      (∀ lane, check = some lane → exec (.currantFlit u upset) s = .next { s with
        chip := raise (setPort s.chip u (takeInput pt { c with repass := some f } f)) (0x7000 + u) 0x05
          (ctxPlain lane) })) ∧
    (currantRuns s.chip u = false ∨ pt.cur.repass = none → exec (.checkColumnRepass u upset) s = .next s) ∧
    (∀ f, currantRuns s.chip u = true → pt.cur.repass = some f →
      let a := setPort s.chip u { pt with cur := { pt.cur with repass := none } }
      (checkFlit a u upset f = none → exec (.checkColumnRepass u upset) s = .next { s with chip := currantTake a u f }) ∧
      (∀ lane q row, checkFlit a u upset f = some lane → findReq pt f.rid = some q → f.fromReturn = true →
        rowNo s.chip u q.row = some row → row.closer = none →
        ∃ b, exec (.checkColumnRepass u upset) s = .next { s with chip := raise b (0x7000 + u) 0x05 (ctxPlain lane) } ∧
          (getPort b u).cur.rows = pt.cur.rows.filter (fun r => decide (r.no ≠ row.no)) ∧
          (getPort b u).reqs = pt.reqs)) ∧
    (∀ (f : CurFlit) (q : Req) (row : Row), findReq pt f.rid = some q → q.dead = false → f.fromReturn = true →
      rowNo s.chip u q.row = some row →
      let row' := { row with
        accs := row.accs.zipIdx.map fun a => accAdd (cauchy row.ck a.2 f.pos) f.off f.bytes a.1
        passed := if f.off + f.bytes.length = 4112 then row.passed ||| 1 <<< f.pos else row.passed }
      (getPort (currantTake s.chip u f) u).cur =
        { pt.cur with rows := pt.cur.rows.map fun r => if r.no = row.no then row' else r })

/-- The coder's accumulation (R158): adding a scaled piece at a byte offset changes exactly the bytes it covers, each
by the product with its coefficient, and keeps the length. -/
def Obligations.AccumulatorBytes : Prop :=
  ∀ (c : Byte) (off : Nat) (piece acc : List Byte), off + piece.length ≤ acc.length →
    (accAdd c off piece acc).length = acc.length ∧
    (∀ i, i < off → (accAdd c off piece acc)[i]? = acc[i]?) ∧
    (∀ i, off + piece.length ≤ i → (accAdd c off piece acc)[i]? = acc[i]?) ∧
    (∀ i (x y : Byte), piece[i]? = some x → acc[off + i]? = some y →
      (accAdd c off piece acc)[off + i]? = some (y ^^^ gf8Mul c x))

/-- VERDICT (R72, R73, R75, R79, R238): the computed verdict of the live request in the entry becomes final; a failure
is recorded and counted against its tenant; VERIFY answers one STATUS, and a held message is released, as zeros on a
failure. ROW_IDLE_EXPIRY (R172): an open row that is not fully claimed and has been idle for ROW_IDLE milliseconds is
discarded with EV_ROW_DISCARDED, cause 2; before that nothing happens. The model's choices that it rests on: log
entry 129. -/
def Obligations.VerdictAndRows : Prop :=
  (∀ (p : Fin 64) (ctx : Fin 4096) (s : State), s.chip.powered = true →
     let pt := getPort s.chip p
     let hit := pt.reqs.find? fun q => decide (q.ctx = ctx.val) && !q.dead
     (halted s.chip = true ∨ hit = none → exec (.verdict p ctx) s = .next s) ∧
     (∀ q, hit = some q → (∀ fail, q.verdict ≠ .computed fail) → exec (.verdict p ctx) s = .next s) ∧
     (∀ q fail, halted s.chip = false → hit = some q → q.verdict = .computed fail → findReq pt q.rid = some q →
       let status := if fail.isSome then stAuthFail else stOk
       let detail := if fail = none then 0 else if 1 ≤ sbMode q.sb ∧ sbMode q.sb ≤ 4 then 0x52 else 0x51
       ∃ b, exec (.verdict p ctx) s = .next { s with chip := b } ∧
         (∃ q', findReq (getPort b p) q.rid = some q' ∧ q'.verdict = .final fail ∧ q'.holdData = []) ∧
         (fail = none → b = { s.chip with ports := b.ports }) ∧
         (∀ unit, fail = some unit →
           (getTenant b (sbTenant q.sb)).authCount = min 65535 ((getTenant s.chip (sbTenant q.sb)).authCount + 1) ∧
           (sbOp q.sb ≠ opBramble → b.recorder =
             (authFail (event s.chip 0x0301 0 (some (sbTenant q.sb))
               [((statusMsg q 0 0).keyidx, 20), ((statusMsg q 0 0).kgen, 8), (sbCookie q.sb, 48), (unit, 16)])
               (sbTenant q.sb) false).recorder)) ∧
         (sbOp q.sb = 5 → (getPort b p).msgs = insertMsg (statusMsg q status detail) pt.msgs) ∧
         (sbOp q.sb = 2 ∨ sbOp q.sb = 4 → q.held = true →
           (getPort b p).msgs = pt.msgs.map fun m =>
             if m.rid = q.rid then
               { m with ready := true, tail := some (status, detail)
                        data := if fail.isSome then zeros m.outlen else q.holdData }
             else m) ∧
         (∀ k, k ≠ p.val → getPort b k = getPort s.chip k) ∧ b.cfg = s.chip.cfg ∧ b.lines = s.chip.lines)) ∧
  (∀ (p : Fin 64) (id : RowId) (s : State), s.chip.powered = true →
     let pt := getPort s.chip p
     (findRow s.chip p id = none → exec (.rowIdleExpiry p id) s = .next s) ∧
     (∀ r, findRow s.chip p id = some r →
       let limit := r.lastAt + 1000 * rowIdleMs s.chip.cfg * usCycles s.chip
       (r.closer ≠ none ∨ s.chip.cycle < limit → exec (.rowIdleExpiry p id) s = .next s) ∧
       (r.closer = none → limit ≤ s.chip.cycle →
         let left := { pt.cur with rows := pt.cur.rows.filter fun x => decide (x.no ≠ r.no) }
         let fields : List (Nat × Nat) :=
           [(p, 6), (r.id.queue, 4), (r.id.profile, 6), (r.id.stripe.toNat, 16), (r.claimed, 32), (2, 8)]
         exec (.rowIdleExpiry p id) s = .next { s with
           chip := event (setPort s.chip p { pt with cur := left }) 0x0701 0 (some r.id.tenant.val) fields })))

/-- SUBLEASE_REFILL (R138, R140, R141, R143, R149): unless Damson hands out nothing, the next sub-lease of the
current lease, or the first of the next one, goes to the lowest unfenced cluster that lacks a register, its CUR before
its NEXT, and after a reset or a slot change to every CUR before any NEXT; the number handed out next moves past it,
and no other register changes. LEASE_RESERVED and LEASE_RETRY (R138, R139, R145, R148): only a record verified on both
devices takes effect: the always-on shadow and the highest reserved lease become its lease, a slot change revokes
every sub-lease and takes the new slot, a resume starts at the new lease, another lease waits as the next. A blocked
reservation is tried again after 1 s. The model's choices that it rests on: log entry 58. -/
def Obligations.LeasesHandedOut : Prop :=
  (∀ (s : State), s.chip.powered = true →
     let m := s.chip.damson
     (refillHeld m = true ∨ refillTarget s.chip = none ∨ nextSub m = none → exec .subleaseRefill s = .next s) ∧
     (∀ c isCur lease slot sub, refillHeld m = false → refillTarget s.chip = some (c, isCur) →
       nextSub m = some (lease, slot, sub) →
       let l : SubLease := { lease := lease, sub := sub, slot := slot, off := 0 }
       let cl := getCluster s.chip c
       let has (k : Nat) (cur : Bool) : Prop :=
         clusterDown s.chip k = true ∨ (if cur then (getCluster s.chip k).cur else (getCluster s.chip k).nxt) ≠ none
       clusterDown s.chip c = false ∧ (if isCur then cl.cur else cl.nxt) = none ∧ (∀ k, k < c → has k true) ∧
       (m.filling = false ∨ isCur = false → ∀ k, k < c → has k false) ∧ (isCur = false → has c true) ∧
       (m.filling = true → isCur = false → ∀ k, k < 64 → has k true) ∧
       ∃ t, exec .subleaseRefill s = .next t ∧ t.aon = s.aon ∧ t.flash0 = s.flash0 ∧ t.flash1 = s.flash1 ∧
         OnlyAt getCluster s.chip t.chip c (if isCur then { cl with cur := some l } else { cl with nxt := some l }) ∧
         t.chip.damson.current = some (lease, slot) ∧ t.chip.damson.sub = sub + 1 ∧
         t.chip.keys = s.chip.keys ∧ t.chip.ports = s.chip.ports ∧ t.chip.cfg = s.chip.cfg)) ∧
  (∀ (s : State), s.chip.powered = true →
     let m := s.chip.damson
     ((∀ r, m.res = some r → (r.ok0 && r.ok1) = false) → exec .leaseReserved s = .next s) ∧
     (∀ r, m.res = some r → r.ok0 = true → r.ok1 = true →
       ∃ t, exec .leaseReserved s = .next t ∧ t.flash0 = s.flash0 ∧ t.flash1 = s.flash1 ∧
         t.aon = (if s.aon.present then
           { s.aon with shadow := r.lease, shadowInv := 2 ^ 44 - 1 - r.lease, shadowValid := true } else s.aon) ∧
         t.chip.damson.highest = some r.lease ∧
         (m.change = some (r.slot, r.grouped) →
           t.chip.damson.slot = r.slot ∧ t.chip.damson.grouped = r.grouped ∧
           t.chip.damson.current = some (r.lease, r.slot) ∧ t.chip.damson.next = none ∧ t.chip.damson.sub = 0 ∧
           ∀ e ∈ t.chip.clusters, e.2.cur = none ∧ e.2.nxt = none) ∧
         (m.change ≠ some (r.slot, r.grouped) → r.reason = 2 →
           t.chip.damson.current = some (r.lease, r.slot) ∧ t.chip.damson.next = none ∧ t.chip.damson.sub = 0) ∧
         (m.change ≠ some (r.slot, r.grouped) → r.reason ≠ 2 → m.current = none →
           t.chip.damson.current = some (r.lease, r.slot) ∧ t.chip.damson.sub = 0) ∧
         (∀ c, m.change ≠ some (r.slot, r.grouped) → r.reason ≠ 2 → m.current = some c →
           t.chip.damson.current = some c ∧ t.chip.damson.next = some (r.lease, r.slot))) ∧
     ((m.blocked && m.res.isSome) = false ∨ nowUs s.chip < m.triedAt + 1000000 → exec .leaseRetry s = .next s) ∧
     (m.blocked = true → m.res.isSome = true → m.triedAt + 1000000 ≤ nowUs s.chip → s.chip.pfail = false →
       leaseBusy s.chip = false →
       ∃ t, exec .leaseRetry s = .next t ∧ t.flash0 = s.flash0 ∧ t.flash1 = s.flash1 ∧ t.otp = s.otp ∧ t.aon = s.aon ∧
         t.chip.damson.highest = m.highest ∧ t.chip.clusters = s.chip.clusters ∧ t.chip.damson.triedAt = nowUs s.chip))

/-- The contents of a flash device (R419): programming makes each byte the AND of what it held and what is programmed
and changes no other byte; erasing sets every byte of its 64 KiB sector and changes no other. -/
def Obligations.FlashBytes : Prop :=
  ∀ (f : Tbl FlitData) (addr : Nat),
    (∀ (bs : List Byte) (i : Nat) (x : Byte), bs[i]? = some x →
      flashRead (flashProgram f addr bs) (addr + i) 1 = (flashRead f (addr + i) 1).map (· &&& x)) ∧
    (∀ (bs : List Byte) (a : Nat), a < addr ∨ addr + bs.length ≤ a →
      flashRead (flashProgram f addr bs) a 1 = flashRead f a 1) ∧
    (∀ a, a / 0x10000 = addr / 0x10000 → flashRead (flashErase f addr) a 1 = [0xFF#8]) ∧
    (∀ a, a / 0x10000 ≠ addr / 0x10000 → flashRead (flashErase f addr) a 1 = flashRead f a 1)

/-- FLASH_PROGRAM_DONE, FLASH_ERASE_DONE, FLASH_OPERATION_TIMEOUT and MIRROR_RECOVERY_DONE (R421, R424, R426, R427, R428):
the operation on the bus programs or erases its own device and no other; a failed program leaves a free value that
clears no bit it was not to clear; an erase outside the rings programs its intent record first, and its completion
record last; a failed erase is done again, up to three times, and its device then leaves service; a device whose
operation takes too long leaves service with its contents, which ends the other's recovery, and a recovered one comes
into service. The model's choices that it rests on: log entries 7, 62. -/
def Obligations.FlashOperationsEnd : Prop :=
  ∀ (d : Fin 2) (s : State), s.chip.powered = true →
    let x := getXspi s.chip d
    let other : Fin 2 := if d = 0 then 1 else 0
    (x.bus = none → (∀ ok, exec (.flashProgramDone d ok) s = .next s) ∧ (∀ ok, exec (.flashEraseDone d ok) s = .next s) ∧
      exec (.flashOperationTimeout d) s = .next s) ∧
    (∀ ok op bs, x.bus = some op → op.bytes = some bs → op.tag ≠ .boot → op.tag ≠ .group →
      ∃ t, exec (.flashProgramDone d ok) s = .next t ∧ getFlash t other = getFlash s other ∧
        getFlash t d = flashProgram (getFlash s d) op.addr (if ok then bs else tornBytes s.chip bs)) ∧
    -- the intent record of an erase, in a sector of its ring that is erased
    (∀ op, x.bus = some op → op.bytes = none → op.phase = .intent → inRing op.addr = false → eraseAt x op = none →
      x.badProgs.length < 16 → ∃ t, exec (.flashProgramDone d true) s = .next t ∧ getFlash t other = getFlash s other ∧
        getFlash t d = flashProgram (getFlash s d) (intentBase + 32 * x.intentPos)
          (intentRecord 1 op.addr (x.intentSeq + 1) s.chip.boots) ∧
        { op with phase := .erase } ∈ xsOps (getXspi t.chip d)) ∧
    (∀ op, x.bus = some op → eraseAt x op = none → ∀ ok, exec (.flashEraseDone d ok) s = .next s) ∧
    (∀ op addr, x.bus = some op → eraseAt x op = some addr →
      (∀ ok, exec (.flashProgramDone d ok) s = .next s) ∧
      (∃ t, exec (.flashEraseDone d true) s = .next t ∧ getFlash t other = getFlash s other ∧
        (∀ a, a / 0x10000 = addr / 0x10000 → flashRead (getFlash t d) a 1 = [0xFF#8]) ∧
        (op.bytes = none → op.phase = .erase → inRing op.addr = false →
          { op with tries := 0, phase := .completion } ∈ xsOps (getXspi t.chip d))) ∧
      (op.tries + 1 < 3 → ∃ t, exec (.flashEraseDone d false) s = .next t ∧ t.flash0 = s.flash0 ∧ t.flash1 = s.flash1 ∧
        { op with tries := op.tries + 1 } ∈ xsOps (getXspi t.chip d)) ∧
      (3 ≤ op.tries + 1 → ∃ t, exec (.flashEraseDone d false) s = .next t ∧ t.flash0 = s.flash0 ∧ t.flash1 = s.flash1 ∧
        (getXspi t.chip d).inService = false ∧ (getXspi t.chip d).recovery = none ∧
        (getXspi t.chip other).recovery = none)) ∧
    (∀ op, x.bus = some op →
      (s.chip.cycle < x.busSince + opLimitUs x op * usCycles s.chip → exec (.flashOperationTimeout d) s = .next s) ∧
      (x.busSince + opLimitUs x op * usCycles s.chip ≤ s.chip.cycle →
        ∃ t, exec (.flashOperationTimeout d) s = .next t ∧ t.flash0 = s.flash0 ∧ t.flash1 = s.flash1 ∧
          (getXspi t.chip d).inService = false ∧ (getXspi t.chip d).recovery = none ∧
          (getXspi t.chip other).recovery = none)) ∧
    (x.recovery = none → exec (.mirrorRecoveryDone d) s = .next s) ∧
    (∀ k, x.recovery = some k → directoryMine (getFlash s d) = false → exec (.mirrorRecoveryDone d) s = .next s) ∧
    (x.recovery = some recoveryEnd → x.bus = none → x.queue = [] → directoryMine (getFlash s d) = true →
      ∃ t, exec (.mirrorRecoveryDone d) s = .next t ∧ t.flash0 = s.flash0 ∧ t.flash1 = s.flash1 ∧ t.otp = s.otp ∧
        (getXspi t.chip d).inService = true ∧ (getXspi t.chip d).recovery = none)

/-- RECORDER_FLUSH_TIMER and RECORDER_HALF_VERIFIED (R411, R412, R414, R416): 100 ms after its first Pip entered, the
filling half is handed to flash, or waits for the half being written; a half is free once all its Pips are verified,
the waiting one follows, and a log whose last position is written is full; before that nothing changes. The model's
choices that it rests on: log entry 92. -/
def Obligations.RecorderHalves : Prop :=
  ∀ (s : State), s.chip.powered = true →
    let r := s.chip.recorder
    (r.filling = [] ∨ s.chip.cycle < r.since + 100000 * usCycles s.chip ∨ r.waiting = true →
      exec .recorderFlushTimer s = .next s) ∧
    (r.filling ≠ [] → r.since + 100000 * usCycles s.chip ≤ s.chip.cycle → r.waiting = false →
      (r.handed = [] → r.wpos ≠ logSize - 1 → ∃ b, exec .recorderFlushTimer s = .next { s with chip := b } ∧
        b.recorder.handed = r.filling ∧ b.recorder.left = r.filling.length ∧ b.recorder.filling = []) ∧
      (r.handed ≠ [] → exec .recorderFlushTimer s = .next { s with
        chip := { s.chip with recorder := { r with waiting := true } } })) ∧
    (r.handed = [] ∨ r.left ≠ 0 ∨ r.paused = true → exec .recorderHalfVerified s = .next s) ∧
    (r.handed ≠ [] → r.left = 0 → r.paused = false → r.clearing = none →
      ∃ t, exec .recorderHalfVerified s = .next t ∧ t.flash0 = s.flash0 ∧ t.flash1 = s.flash1 ∧ t.otp = s.otp ∧
        (logSize ≤ r.wpos → t.chip.recorder.full = true ∧ t.chip.recorder.handed = [] ∧ t.chip.recorder.filling = []) ∧
        (r.wpos + 1 < logSize → r.waiting = true →
          t.chip.recorder.handed = r.filling ∧ t.chip.recorder.left = r.filling.length ∧ t.chip.recorder.filling = [] ∧
            t.chip.recorder.waiting = false) ∧
        (r.wpos < logSize → r.waiting = false → t.chip.recorder.handed = [] ∧ t.chip.recorder.filling = r.filling))

/-- KEY_SCRUB and KEY_CLEARING_DONE (R116, R117): up to 8 bad bytes of a slot or line key entry are corrected and
recorded; with more, one that holds a key enters CLEARING with its key bytes gone; the end of CLEARING leaves it EMPTY
with its generation advanced and every other field zero. No other descriptor changes. DUAL_SESSION_EXPIRY,
ENROL_ALLOW_EXPIRY and OFFICER_LOCKOUT_END (R128, R251, R255): at its expiry the open session ends with its share
gone, cause 1; an allowance closes; a lockout ends with its count of failures at zero; before that, and for the session
and the allowance during a handover (R449), nothing changes. That the session does not expire while its second commit
waits for its vault record is the model's choice (log entry 96, DEDUCED). The model's choices that it rests on: log
entries 42, 59, 96. -/
def Obligations.KeyTimesEnd : Prop :=
  (∀ (s : State) (bad : List (Fin 80)), s.chip.powered = true →
     let n := bad.eraseDups.length
     (∀ k : Fin 1048576,
       let d := slotDesc s.chip k
       let i := Instr.keyScrub (.slot k) bad
       (bad = [] ∨ (n ≤ 8 ∧ dState d = 0) ∨ (8 < n ∧ dState d ≠ 2 ∧ dState d ≠ 3) → exec i s = .next s) ∧
       (bad ≠ [] → n ≤ 8 → dState d ≠ 0 → exec i s = .next { s with
         chip := event s.chip 0x0302 0 (some (dTenant d)) [(k, 20), (n, 8), (0, 1)] }) ∧
       (8 < n → dState d = 2 ∨ dState d = 3 → ∃ b, exec i s = .next { s with chip := b } ∧
         OnlyAt slotDesc s.chip b k (setFld (setFld d 125 3 4) 94 1 0) ∧ Tbl.get [] b.keys.cache k = [] ∧
         b.cfg = s.chip.cfg ∧ b.tenants = s.chip.tenants ∧ b.lines = s.chip.lines)) ∧
     (∀ e : Fin 4096,
       let d := lineDesc s.chip e
       let i := Instr.keyScrub (.entry e) bad
       (bad = [] ∨ (n ≤ 8 ∧ ldState d = 0) ∨ (8 < n ∧ ldState d ≠ 2 ∧ ldState d ≠ 3) → exec i s = .next s) ∧
       (bad ≠ [] → n ≤ 8 → ldState d ≠ 0 → exec i s = .next { s with
         chip := event s.chip 0x0302 0 (some (ldTenant d)) [(e, 20), (n, 8), (1, 1)] }) ∧
       (8 < n → ldState d = 2 ∨ ldState d = 3 → ∃ b, exec i s = .next { s with chip := b } ∧
         OnlyAt lineDesc s.chip b e (setFld d 125 3 4) ∧ (∀ g, Tbl.get [] b.keys.lstore (storeAt g e) = []) ∧
         b.cfg = s.chip.cfg ∧ b.keys.desc = s.chip.keys.desc ∧ b.ports = s.chip.ports ∧ b.lines = s.chip.lines)) ∧
     (∀ k : Fin 1048576,
       let d := slotDesc s.chip k
       (dState d ≠ 4 → exec (.keyClearingDone (.slot k)) s = .next s) ∧
       (dState d = 4 → ∃ b, exec (.keyClearingDone (.slot k)) s = .next { s with chip := b } ∧
         OnlyAt slotDesc s.chip b k (setFld 0 107 8 ((dKgen d + 1) % 256)) ∧
         dState (slotDesc b k) = 0 ∧ dKgen (slotDesc b k) = (dKgen d + 1) % 256 ∧ b.cfg = s.chip.cfg ∧
         b.ports = s.chip.ports ∧ b.tenants = s.chip.tenants)) ∧
     (∀ e : Fin 4096,
       let d := lineDesc s.chip e
       (ldState d ≠ 4 → exec (.keyClearingDone (.entry e)) s = .next s) ∧
       (ldState d = 4 → ∃ b, exec (.keyClearingDone (.entry e)) s = .next { s with chip := b } ∧
         OnlyAt lineDesc s.chip b e (setFld 0 107 8 ((ldLgen d + 1) % 256)) ∧
         ldState (lineDesc b e) = 0 ∧ ldLgen (lineDesc b e) = (ldLgen d + 1) % 256 ∧ b.cfg = s.chip.cfg ∧
         b.ports = s.chip.ports ∧ b.ranges = s.chip.ranges))) ∧
  (∀ (s : State), s.chip.powered = true →
     let n := s.chip.keys.session
     (sessionOpen n = false ∨ nowUs s.chip < n.expiry ∨ sessionBusy s.chip = true ∨ s.chip.fw.handover = true →
       exec .dualSessionExpiry s = .next s) ∧
     (sessionOpen n = true → n.expiry ≤ nowUs s.chip → sessionBusy s.chip = false → s.chip.fw.handover = false →
       ∃ b, exec .dualSessionExpiry s = .next { s with chip := b } ∧
         b.keys = { s.chip.keys with session := { n with share := [], state := 5, cause := 1 } } ∧
         b.ports = s.chip.ports ∧ b.cfg = s.chip.cfg ∧ b.fw = s.chip.fw) ∧
     (∀ o : Fin 2,
       let f := getOfficer s.chip o
       (∀ t, f.allowUntil = some t → t ≤ nowUs s.chip → s.chip.fw.handover = false →
         exec (.enrolAllowExpiry o) s = .next { s with chip := setOfficer s.chip o { f with allowUntil := none } }) ∧
       (f.allowUntil = none ∨ s.chip.fw.handover = true → exec (.enrolAllowExpiry o) s = .next s) ∧
       (∀ t, f.allowUntil = some t → nowUs s.chip < t → exec (.enrolAllowExpiry o) s = .next s) ∧
       (∀ t, f.lockUntil = some t → t ≤ nowUs s.chip → exec (.officerLockoutEnd o) s = .next { s with
         chip := setOfficer s.chip o { f with lockUntil := none, fails := 0 } }) ∧
       (f.lockUntil = none → exec (.officerLockoutEnd o) s = .next s) ∧
       (∀ t, f.lockUntil = some t → nowUs s.chip < t → exec (.officerLockoutEnd o) s = .next s)))

/-- LINE_REQUEST (R19, R180, R189, R191, R199, R214, R364, R379, R392): the checks of Table 8.3 in their order, and what
each outcome does to a port on which nothing waits before the request: a refusal is answered ERROR and counted, a request
in a window is held, a read above SWEEP answers zeros, and a served one goes to the queue toward the controller, a write
encrypted under its entry's key, with the entry's in-flight count up by one; one whose key is found lost as it is
fetched is refused with ST_KEY_EMPTY. A line with a block that has failed on three slices does not go on. A request
waits while the queue is full, or its entry disagrees with its inverted copy, and is not taken while FQ_READY is low or
no slice may work. The model's choices: that a retry slot holds FQ_READY low for a line cycle counted as two core cycles,
the order of the waiting queue and where the failed line is held (log entry 133), the lost key's status (log entry 147)
and an access of Dolha's own in the same step (log entry 122). -/
def Obligations.LineRequestLookup : Prop :=
  ∀ (p : Fin 32) (lane : Fin 2) (q : LineRequest) (met : LineMeets) (s : State), s.chip.powered = true →
    let i := Instr.lineRequest p lane q met
    let lp := { getLine s.chip p with clk := true }
    let l := getLane lp lane
    let a := q.addr.toNat
    let low : Prop := halted s.chip = false ∧
      (32 ≤ l.held.length ∨ 32 ≤ lp.fq.length ∨ s.chip.cycle < lp.fqStall ∨ lineStalled s.chip p = true)
    -- the port with its earlier response gone, and with the access of Dolha's own that the step brings
    let A := issueOwn met (setLine s.chip p (setLane lp lane { l with fs := [] })) p
    let L := getLine A p
    let k := getLane L lane
    let held := L.lane0.held ++ L.lane1.held
    let clear : Prop := (∀ h ∈ held, lineClash A p h = none) ∧ ∀ x ∈ L.fq, lineClash A p x.req x.early = none
    let error (st : Nat) : LinePort := { setLane L lane { k with
      fs := k.fs ++ [{ valid := true, write := q.write, tag := q.tag.toNat % 256, resp := 2, status := st, data := 0 }] } with
      refused := min 65535 (L.refused + 1) }
    (low → ∃ b, exec i s = .next { s with chip := b } ∧ LineNow s.chip b p lp) ∧
    (¬ low → lineStalled A p = false → clear →
      (hostRoom A p = false → lineClash A p q = none → ∃ b, exec i s = .next { s with chip := b } ∧
        LineNow A b p { L with fq := L.fq ++ [{ lane := lane, req := q }] }) ∧
      ((∀ h ∈ held, lookup A p h = .hold) → L.fq = [] →
        (∀ x, lineClash A p q = some x → ∃ b, exec i s = .next { s with chip := b } ∧
          LineNow (raiseShadow A x) b p { L with fq := [{ lane := lane, req := q }] }) ∧
        (lineClash A p q = none → hostRoom A p = true →
          (∀ st, lookup A p q = .refuse st → ∃ b, exec i s = .next { s with chip := b } ∧ LineNow A b p (error st)) ∧
          (lookup A p q = .hold → k.held.length < 32 → ∃ b, exec i s = .next { s with chip := b } ∧
            LineNow A b p (setLane L lane { k with held := k.held ++ [q] })) ∧
          (lookup A p q = .zero → ∃ b, exec i s = .next { s with chip := b } ∧
            LineNow A b p (setLane L lane { k with fs := k.fs ++
              [{ valid := true, write := false, tag := q.tag.toNat % 256, resp := 0, status := 0, data := 0 }] })) ∧
          (∀ r e, lookup A p q = .serve r e →
            let rd := readEntry A p e met.bad
            let key := entryKey A p e
            let lgen := ldLgen (lineDesc A e)
            let enc := if q.write then lineEncrypt key a lgen q.data else (0, 0)
            let op : LineOp :=
              { kind := .host, write := q.write, addr := a, tag := q.tag.toNat, data := enc.1, metadata := enc.2
                region := r, entry := e, lgen := lgen, key := key, gen := A.admitGen }
            let tr : LineTries := if q.write then lineTries A p a met.fails else {}
            let L' := { L with fqStall := if tr.slots = 0 then L.fqStall else max L.fqStall A.cycle + 2 * tr.slots }
            (rd.2 = false → ∃ b, exec i s = .next { s with chip := b } ∧ LineNow rd.1 b p (error 0x10)) ∧
            (rd.2 = true → ∃ b, exec i s = .next { s with chip := b } ∧
              OnlyAt getLine A b p (setLane L' lane
                (if tr.worst < 3 then { k with mq := k.mq ++ [op] } else { k with stuck := k.stuck ++ [op] })) ∧
              lineInflight b e = lineInflight A e + 1 ∧ b.keys.ldesc = A.keys.ldesc ∧
              (tr.met = [] → b.faults = rd.1.faults) ∧
              b = { rd.1 with lines := b.lines, keys := b.keys, faults := b.faults }))))) ∧
    (halted s.chip = true → lookup s.chip p q = .refuse 0xFE) ∧
    (halted s.chip = false →
      (portServes s.chip p = false → lookup s.chip p q = .refuse 0x04) ∧
      (portServes s.chip p = true →
        (linePortOf s.chip.cfg a ≠ p.val → lookup s.chip p q = .refuse 0x03) ∧
        (linePortOf s.chip.cfg a = p.val →
          (findRegion s.chip.cfg a = none → lookup s.chip p q = .refuse 0x04) ∧
          (∀ r reg, findRegion s.chip.cfg a = some (r, reg) →
            (rgKind reg ≠ 1 ∨ q.kidx.toNat &&& rgAmask reg ≠ rgAval reg → lookup s.chip p q = .refuse 0x04) ∧
            (rgKind reg = 1 → q.kidx.toNat &&& rgAmask reg = rgAval reg →
              (lineEntry s.chip reg a = none → lookup s.chip p q = .hold) ∧
              (∀ e, lineEntry s.chip reg a = some e →
                (ldState (lineDesc s.chip e) ≠ 2 → lookup s.chip p q = .refuse 0x10) ∧
                (ldState (lineDesc s.chip e) = 2 → (getSweep s.chip r).bound ≤ a →
                  lookup s.chip p q = if q.write then .refuse 0x51 else .zero) ∧
                (ldState (lineDesc s.chip e) = 2 → a < (getSweep s.chip r).bound →
                  lookup s.chip p q = .serve r e)))))))

/-- LINE_WRITE_TAKEN, LINE_READ_REQUEST_TAKEN and LINE_READ_DATA (R175, R188, R189, R192, R196, R198, R364, R379): the
controller takes the request that stands on MQ, a background one within its budget before one of the fabric; a write
of the fabric is answered, a read waits for its data; data that verifies is answered decrypted, a MAC failure ERROR with
ST_AUTH_FAIL, bad ECC with its own response, and data of an aborted read is discarded; after each request that is taken
what waits on the port goes on. The model's choices: that a retry slot holds MD_READY low for a line cycle counted as two
core cycles, where the failed line is held and what then goes on (log entry 133), the background budget's window and lane
(log entry 22) and an access of Dolha's own in the same step (log entry 122). -/
def Obligations.LineAccessEnds : Prop :=
  ∀ (p : Fin 32) (lane : Fin 2) (met : LineMeets) (s : State), s.chip.powered = true →
    let lp := getLine s.chip p
    let l := getLane lp lane
    let took (o : LineOp) : LinePort := if o.kind = .host then lp else { lp with
      bgWrites := if o.write then recentStamps s.chip lp.bgWrites ++ [s.chip.cycle] else lp.bgWrites
      bgReads := if o.write then lp.bgReads else recentStamps s.chip lp.bgReads ++ [s.chip.cycle]
      lastSweep := if o.kind = .own then lp.lastSweep else decide (o.kind = .sweep) }
    let left (o : LineOp) : Lane := { l with
      fs := [], mq := if o.kind = .host then l.mq.erase o else l.mq, bg := if o.kind = .host then l.bg else l.bg.erase o }
    -- what waits on the port goes on, after an access of Dolha's own that the step brings
    let onward (a : Chip) : State := { s with chip := serveLine met (issueOwn met a p) p }
    ((∀ o, bgHead s.chip lp lane = some o → mqHead s.chip p lane = some o ∧ o ∈ l.bg ∧ inBudget s.chip lp o = true) ∧
      (bgHead s.chip lp lane = none → mqHead s.chip p lane = l.mq.head?)) ∧
    -- LINE_WRITE_TAKEN
    (halted s.chip = true ∨ (∀ o, mqHead s.chip p lane = some o → o.write = false) →
      exec (.lineWriteTaken p lane met) s = .next s) ∧
    (∀ o, halted s.chip = false → mqHead s.chip p lane = some o → o.write = true →
      (o.kind = .host → ∃ a, exec (.lineWriteTaken p lane met) s = .next (onward a) ∧
        LineAt s.chip a p (setLane (took o) lane { left o with fs := [fsOkay true o.tag 0] }) ∧
        lineInflight a o.entry = lineInflight s.chip o.entry - 1) ∧
      (o.kind = .sweep ∨ o.kind = .own → ∃ a, exec (.lineWriteTaken p lane met) s = .next (onward a) ∧
        LineAt s.chip a p (setLane (took o) lane (left o))) ∧
      (o.kind = .rekey → ∃ a, exec (.lineWriteTaken p lane met) s = .next (onward (rekeyLineDone met a o.region o.addr)) ∧
        LineAt s.chip a p (setLane (took o) lane (left o)))) ∧
    -- LINE_READ_REQUEST_TAKEN
    (halted s.chip = true ∨ (∀ o, mqHead s.chip p lane = some o → o.write = true) →
      exec (.lineReadRequestTaken p lane met) s = .next s) ∧
    (∀ o, halted s.chip = false → mqHead s.chip p lane = some o → o.write = false →
      ∃ a, exec (.lineReadRequestTaken p lane met) s = .next (onward a) ∧
        LineNow s.chip a p (setLane (took o) lane { left o with reads := l.reads ++ [o] })) ∧
    -- LINE_READ_DATA
    (∀ d : LineReturn,
      let i := Instr.lineReadData p lane d met
      let A := issueOwn met (setLine s.chip p (setLane lp lane { l with fs := [] })) p
      let L := getLine A p
      let k := getLane L lane
      (halted s.chip = false → s.chip.cycle < lp.mdStall ∨ lineStalled s.chip p = true → exec i s = .next s) ∧
      (halted s.chip = true ∨ (lp.mdStall ≤ s.chip.cycle ∧ lineStalled s.chip p = false) →
        (d.tag.toNat ∈ k.aborted → ∃ b, exec i s = .next { s with chip := b } ∧
          LineNow A b p (setLane L lane { k with aborted := k.aborted.erase d.tag.toNat })) ∧
        (d.tag.toNat ∉ k.aborted → (∀ o ∈ k.reads, o.tag ≠ d.tag.toNat) → exec i s = .next { s with chip := A }) ∧
        (∀ o rest, d.tag.toNat ∉ k.aborted → takeFirst (fun o => decide (o.tag = d.tag.toNat)) k.reads = some (o, rest) →
          let tr := lineTries A p o.addr met.fails
          let L' := { L with mdStall := if tr.slots = 0 then L.mdStall else max L.mdStall A.cycle + 2 * tr.slots }
          let k' := { k with reads := rest }
          (3 ≤ tr.worst → ∃ b, exec i s = .next { s with chip := b } ∧
            OnlyAt getLine A b p (setLane L' lane { k' with stuck := k.stuck ++ [o] })) ∧
          (tr.worst < 3 → o.kind = .host →
            (2 ≤ d.ecc.toNat → ∃ b, exec i s = .next { s with chip := b } ∧
              LineAt A b p { setLane L' lane { k' with
                fs := k.fs ++ [{ fsOkay false o.tag 0 with resp := 1 }] } with ecc := min 65535 (L.ecc + 1) }) ∧
            (d.ecc.toNat < 2 → macOfLine o.key o.addr o.lgen (bvBytes 64 d.data) = d.metadata →
              ∃ b, exec i s = .next { s with chip := b } ∧ LineAt A b p (setLane L' lane { k' with
                fs := k.fs ++ [fsOkay false o.tag (lineDecrypt o.key o.addr o.lgen d.data)] })) ∧
            (d.ecc.toNat < 2 → macOfLine o.key o.addr o.lgen (bvBytes 64 d.data) ≠ d.metadata →
              ∃ b, exec i s = .next { s with chip := b } ∧ LineAt A b p { setLane L' lane { k' with
                fs := k.fs ++ [{ valid := true, write := false, tag := o.tag % 256, resp := 2, status := 0x20, data := 0 }] }
                with auth := min 65535 (L.auth + 1) })))))

/-- SWEEP_WRITE, LINE_WINDOW_OPEN, LINE_REKEY_READ, LINE_REKEY_SWAP and REKEY_NO_KEY_RETRY (R184, R191, R192, R214 to
R218, R362, R364): the next line of a sweep is written as zeros under the region's current key; a window opens once no
request of the fabric that overlaps it waits; its next line is read under the current key; past the region the new key
becomes current in a new generation, or the swap waits 10 µs while two are live; a line rekey that found no successor is
tried again after a second, while the key's usage is at its budget; an access of Dolha's own to a VITAL region enters the
slices with bit 8 of its tag set. The model's choices: where a line goes whose block has failed on three slices (log
entry 133), and log entries 22, 76, 122, 144. -/
def Obligations.LineBackgroundWork : Prop :=
  ∀ (r : Fin 4096) (s : State), s.chip.powered = true →
    let reg := regionOf s.chip.cfg r
    let e := rgCkey reg
    let lgen := ldLgen (lineDesc s.chip e)
    (∀ met : LineMeets,
      let a := sweepNext s.chip r
      let p := linePortOf s.chip.cfg a
      let lane := if a % 2 = 0 then (0 : Fin 2) else 1
      let key := entryKey s.chip p e
      let enc := lineEncrypt key a lgen 0
      let old := getLane (getLine s.chip p) lane
      let tr := lineTries s.chip p a met.fails
      (halted s.chip = true ∨ sweepReady s.chip r p = false ∨ bgRoom s.chip p .sweep = false →
        exec (.sweepWrite r met) s = .next s) ∧
      (halted s.chip = false → sweepReady s.chip r p = true → bgRoom s.chip p .sweep = true →
        ∃ (b : Chip) (tag : Nat), exec (.sweepWrite r met) s = .next { s with chip := b } ∧
          b.sweeps = s.chip.sweeps ∧ b.cfg = s.chip.cfg ∧ 256 ≤ tag ∧
          let op : LineOp :=
            { kind := .sweep, write := true, addr := a, tag := tag, region := r, entry := e, lgen := lgen
              data := enc.1, metadata := enc.2, key := key, gen := s.chip.admitGen }
          getLane (getLine b p) lane = (if tr.worst < 3 then { old with bg := old.bg ++ [op] }
            else { old with stuck := old.stuck ++ [op] }))) ∧
    (regionJob s.chip r = none → exec (.lineWindowOpen r) s = .next s ∧ exec (.lineRekeyRead r) s = .next s ∧
      exec (.lineRekeySwap r) s = .next s) ∧
    (∀ n j, regionJob s.chip r = some (n, j) →
      -- LINE_WINDOW_OPEN
      (halted s.chip = false → j.win = 1 → jobPortsServe s.chip j = true → windowClear s.chip j = true →
        ∃ b, exec (.lineWindowOpen r) s = .next { s with chip := b } ∧ LjobNow s.chip b n (some { j with win := 2 })) ∧
      (halted s.chip = true ∨ j.win ≠ 1 ∨ jobPortsServe s.chip j = false ∨ windowClear s.chip j = false →
        exec (.lineWindowOpen r) s = .next s) ∧
      -- LINE_REKEY_READ
      (let a := rekeyNext s.chip j
       let p := linePortOf s.chip.cfg a
       let lane := if a % 2 = 0 then (0 : Fin 2) else 1
       let old := getLane (getLine s.chip p) lane
       (halted s.chip = true ∨ rekeyReady s.chip j p = false ∨ bgRoom s.chip p .rekey = false →
         exec (.lineRekeyRead r) s = .next s) ∧
       (halted s.chip = false → rekeyReady s.chip j p = true → bgRoom s.chip p .rekey = true →
         ∃ (b : Chip) (tag : Nat), exec (.lineRekeyRead r) s = .next { s with chip := b } ∧
           b.ljobs = s.chip.ljobs ∧ b.cfg = s.chip.cfg ∧ 256 ≤ tag ∧
           getLane (getLine b p) lane = { old with bg := old.bg ++
             [{ kind := .rekey, write := false, addr := a, tag := tag, region := r, entry := e, lgen := lgen
                key := entryKey s.chip p e, gen := s.chip.admitGen }] })) ∧
      -- LINE_REKEY_SWAP
      (j.swapAt = none → exec (.lineRekeySwap r) s = .next s) ∧
      (∀ t, j.swapAt = some t →
        (halted s.chip = true ∨ nowUs s.chip < t → exec (.lineRekeySwap r) s = .next s) ∧
        (halted s.chip = false → t ≤ nowUs s.chip →
          (s.chip.live2 = true → ∃ b, exec (.lineRekeySwap r) s = .next { s with chip := b } ∧
            LjobNow s.chip b n (some { j with swapAt := some (nowUs s.chip + 10) })) ∧
          (s.chip.live2 = false → ∃ b, exec (.lineRekeySwap r) s = .next { s with chip := b } ∧
            rgCkey (regionOf b.cfg r) = rgNkey reg ∧ rgRekey (regionOf b.cfg r) = false ∧ getLjob b n = none ∧
            b.admitGen = (s.chip.admitGen + 1) % 65536 ∧ b.cfgOld = s.chip.cfg ∧ b.live2 = true ∧
            (ldState (lineDesc b e) = 3 ∨ ldState (lineDesc b e) = 4))))) ∧
    -- REKEY_NO_KEY_RETRY
    ((∀ x ∈ s.chip.quince.noKey, x.1 ≠ r.val) → exec (.rekeyNoKeyRetry r) s = .next s) ∧
    (∀ j t, s.chip.quince.noKey.find? (fun x => decide (x.1 = r.val)) = some (j, t) →
      (halted s.chip = true ∨ s.chip.fw.handover = true ∨ nowUs s.chip < t + 1000000 →
        exec (.rekeyNoKeyRetry r) s = .next s) ∧
      (halted s.chip = false → s.chip.fw.handover = false → t + 1000000 ≤ nowUs s.chip →
        (rgKind reg = 0 ∨ rgRekey reg = true ∨ overBudget s.chip r = false → exec (.rekeyNoKeyRetry r) s = .next { s with
          chip := { s.chip with quince := { s.chip.quince with
            noKey := s.chip.quince.noKey.filter fun x => x.1 != r.val } } }) ∧
        (∀ k, rgKind reg ≠ 0 → rgRekey reg = false → overBudget s.chip r = true → drawTarget s.chip reg = some k →
          k < 4096 → s.chip.live2 = false → s.chip.rng.seeded = true → jobRefusal s.chip r = none →
          keepRoom s.chip reg = true → s.chip.keys.ck.isSome = true →
          ∃ b, exec (.rekeyNoKeyRetry r) s = .next { s with chip := b } ∧
            rgRekey (regionOf b.cfg r) = true ∧ rgNkey (regionOf b.cfg r) = k ∧ ldState (lineDesc b k) = 2 ∧
            b.admitGen = (s.chip.admitGen + 1) % 65536))) ∧
    -- an access of Dolha's own
    (∀ (met : LineMeets) (o : OwnAccess) (e : Nat), met.own = some o → o.region = r →
      let a := o.addr.toNat
      let p := linePortOf s.chip.cfg a
      let lane := if a % 2 = 0 then (0 : Fin 2) else 1
      let old := getLane (getLine s.chip p) lane
      let key := entryKey s.chip p e
      let enc := if o.write then lineEncrypt key a (ldLgen (lineDesc s.chip e)) o.data else (0, 0)
      halted s.chip = false → rgKind reg = 2 → rgFirst reg ≤ a → a ≤ rgLast reg → a < (getSweep s.chip r).bound →
      bgRoom s.chip p .own = true → lineEntry s.chip reg a = some e → ldState (lineDesc s.chip e) = 2 →
      (readEntry s.chip p e met.bad).2 = true → (o.write = true → (lineTries s.chip p a met.fails).worst < 3) →
      ∃ tag, 256 ≤ tag ∧ getLane (getLine (issueOwn met s.chip p) p) lane = { old with bg := old.bg ++
        [{ kind := .own, write := o.write, addr := a, tag := tag, data := enc.1, metadata := enc.2, region := r, entry := e
           lgen := ldLgen (lineDesc s.chip e), key := key, gen := s.chip.admitGen }] })

/-- WINDOW_PENDING and WINDOW_OPEN (R205, R206, R333): while windows are free under FETCH_OUT, the next job in round
robin takes a pending window of at most W units; once no request overlaps it the window opens under the job's next
FSEQ, its descriptor is queued unless one of the job is still unread, and the fetch cause is raised; otherwise nothing
changes. The model's choices that it rests on: log entry 16. -/
def Obligations.RangeWindowsOpen : Prop :=
  ∀ (s : State), s.chip.powered = true →
    (halted s.chip = true ∨ fetchOut s.chip.cfg ≤ windowsOut s.chip ∨ nextWindowJob s.chip = none →
      exec .windowPending s = .next s) ∧
    (∀ j r, halted s.chip = false → windowsOut s.chip < fetchOut s.chip.cfg → nextWindowJob s.chip = some j →
      getRange s.chip j = some r →
      ∃ b, exec .windowPending s = .next { s with chip := b } ∧
        OnlyAt getRange s.chip b j (some { r with
          st := .window, win := some { e := min (r.b + windowUnits s.chip r) (r.hi + 1) } }) ∧
        b = { s.chip with ranges := b.ranges, rangeNext := (j + 1) % 4096 }) ∧
    (∀ job : Fin 4096,
      (getRange s.chip job = none → exec (.windowOpen job) s = .next s) ∧
      (∀ r, getRange s.chip job = some r → r.win = none → exec (.windowOpen job) s = .next s) ∧
      (∀ r w, getRange s.chip job = some r → r.win = some w →
        (halted s.chip = true ∨ w.isOpen = true ∨ overlaps s.chip r w.e = true → exec (.windowOpen job) s = .next s) ∧
        (halted s.chip = false → w.isOpen = false → overlaps s.chip r w.e = false →
          let w' := { w with isOpen := true, fseq := r.fseq, since := nowUs s.chip }
          let r' := { r with win := some w', fseq := (r.fseq + 1) % 65536 }
          ∃ a, exec (.windowOpen job) s = .next { s with chip := attRaise a 0x801 5 } ∧
            OnlyAt getRange s.chip a job (some r') ∧
            a.fetchQ = (if s.chip.fetchQ.any fun x => decide (x.1 = job.val) then s.chip.fetchQ
              else s.chip.fetchQ ++ [(job.val, fetchDescriptor s.chip job r' w')]) ∧
            a = { s.chip with ranges := a.ranges, fetchQ := a.fetchQ })))

/-- BRAMBLE_FETCH_READ and BRAMBLE_DONE (R208, R211, R333): reading word 0 takes the head descriptor off the queue,
or reads zero; the write that names an answered window moves B to its end and closes it, a range whose B passes HI is
DONE, and any other write only records EV_REKEY_BADACK. FETCH_LIMIT_EXPIRY (R210): FETCH_LIMIT after it opened, a
window whose return has not begun closes with B unchanged; one whose last BRAMBLE_OUT flit has left, or whose return
has ended, waits another interval, with its descriptor queued again; before that nothing happens. The model's choices
that it rests on: log entries 136, 137, 138. -/
def Obligations.RangeFetches : Prop :=
  (∀ (s : State), s.chip.powered = true → s.chip.ctl.hostReset = false → s.chip.ctl.stall = none →
     (∀ x rest, s.chip.fetchQ = x :: rest →
       exec .brambleFetchRead s = .next { s with chip := { s.chip with
         fetchQ := rest
         ctl := { s.chip.ctl with fetch := x.2, err := false, data := BitVec.ofNat 64 (fld x.2 0 64) } } }) ∧
     (s.chip.fetchQ = [] →
       exec .brambleFetchRead s = .next { s with chip := { s.chip with
         ctl := { s.chip.ctl with fetch := 0, err := false, data := 0 } } }) ∧
     (∀ data : Word64,
       let j := fld data 0 12
       let fseq := fld data 16 16
       let refused : Prop := exec (.brambleDone data) s =
         .next { s with chip := ctlDone (event s.chip 0x0604 0 none [(j, 12), (fseq, 16)]) 0 }
       (getRange s.chip j = none → refused) ∧
       (∀ r, getRange s.chip j = some r → r.win = none → refused) ∧
       (∀ r w, getRange s.chip j = some r → r.win = some w → (w.outDone = false ∨ w.fseq ≠ fseq) → refused) ∧
       (∀ r w, getRange s.chip j = some r → r.win = some w → w.outDone = true → w.fseq = fseq →
         ∃ b, exec (.brambleDone data) s = .next { s with chip := b } ∧ b.ctl.err = false ∧ b.cfg = s.chip.cfg ∧
           b.ports = s.chip.ports ∧ b.tenants = s.chip.tenants ∧
           (∀ i, i ≠ j → getRange b i = getRange s.chip i) ∧
           (w.e ≤ r.hi → getRange b j = some { r with
             b := w.e, win := none, pausing := false, st := if r.pausing then .paused else .opened }) ∧
           (r.hi < w.e → (getRange b j = none ∨ getRange b j = some { r with
             b := w.e, win := none, pausing := false, st := .done }) ∧ dState (slotDesc b r.o) ≠ 2) ∧
           (∀ x ∈ b.fetchQ, x.1 ≠ j)))) ∧
  (∀ (job : Fin 4096) (s : State), s.chip.powered = true →
     (getRange s.chip job = none → exec (.fetchLimitExpiry job) s = .next s) ∧
     (∀ r, getRange s.chip job = some r → r.win = none → exec (.fetchLimitExpiry job) s = .next s) ∧
     (∀ r w, getRange s.chip job = some r → r.win = some w →
       let limit := w.since + 1000 * fetchLimitMs s.chip.cfg
       let served := returnServed s.chip job w
       (halted s.chip = true ∨ w.isOpen = false ∨ nowUs s.chip < limit ∨
           (w.outBegun = true ∧ w.outDone = false ∧ served = true) →
         exec (.fetchLimitExpiry job) s = .next s) ∧
       (halted s.chip = false → w.isOpen = true → limit ≤ nowUs s.chip →
         (w.outBegun = false → ∃ b, exec (.fetchLimitExpiry job) s = .next { s with chip := b } ∧
           OnlyAt getRange s.chip b job (some { r with
             win := none, pausing := false, st := if r.pausing then .paused else .opened }) ∧
           (∀ x ∈ b.fetchQ, x.1 ≠ job.val) ∧ b.keys = s.chip.keys ∧ b.ports = s.chip.ports) ∧
         (w.outBegun = true → w.outDone = true ∨ served = false →
           ∃ b, exec (.fetchLimitExpiry job) s = .next { s with chip := b } ∧
             OnlyAt getRange s.chip b job (some { r with win := some { w with since := limit } }) ∧
             (∃ x ∈ b.fetchQ, x.1 = job.val) ∧ b.keys = s.chip.keys ∧ b.ports = s.chip.ports))))

/-- GENERATION_DRAIN and DISPATCH_REWRITE (R87, R184, R221 to R223): LIVE2 clears once nothing stamped with the older
generation remains, and the write of the VITAL regions that waited for it then makes the next generation; after a
cluster fence one generation maps every port to an unfenced cluster while one remains, and it waits while two
generations are live. That the VITAL regions wait for a free generation is the model's choice (log entry 85, DEDUCED). -/
def Obligations.GenerationsTurn : Prop :=
  ∀ (s : State), s.chip.powered = true →
    let q := s.chip.quince
    (s.chip.live2 = false ∨ genUsed s.chip s.chip.oldGen = true → exec .generationDrain s = .next s) ∧
    (s.chip.live2 = true → genUsed s.chip s.chip.oldGen = false →
      (q.vitalsDue = false ∨ halted s.chip = true →
        exec .generationDrain s = .next { s with chip := { s.chip with live2 := false } }) ∧
      (q.vitalsDue = true → halted s.chip = false → s.chip.dstate ≠ 0 →
        ∃ b, exec .generationDrain s = .next { s with chip := b } ∧ b.quince = { q with vitalsDue := false } ∧
          b.live2 = true ∧ b.admitGen = (s.chip.admitGen + 1) % 65536 ∧ b.cfgOld = s.chip.cfg ∧
          b.cfg.tenants = s.chip.cfg.tenants ∧ b.ports = s.chip.ports)) ∧
    (q.rewrite = [] ∨ s.chip.live2 = true ∨ halted s.chip = true ∨ s.chip.fw.handover = true →
      exec .dispatchRewrite s = .next s) ∧
    (q.rewrite ≠ [] → s.chip.live2 = false → halted s.chip = false → s.chip.fw.handover = false →
      ((∀ p, p < 64 → clusterDown s.chip (homeOf s.chip.cfg p) = false) →
        exec .dispatchRewrite s = .next { s with chip := { s.chip with quince := { q with rewrite := [] } } }) ∧
      ((∃ p, p < 64 ∧ clusterDown s.chip (homeOf s.chip.cfg p) = true) →
        ∃ b, exec .dispatchRewrite s = .next { s with chip := b } ∧ b.quince = { q with rewrite := [] } ∧
          b.keys = s.chip.keys ∧ b.ports = s.chip.ports ∧
          b.cfg.regions = s.chip.cfg.regions ∧ b.cfg.tenants = s.chip.cfg.tenants ∧
          b.admitGen = (s.chip.admitGen + 1) % 65536 ∧ b.live2 = true ∧ b.cfgOld = s.chip.cfg ∧
          ((∃ c, c < 64 ∧ clusterDown s.chip c = false) →
            ∀ p, p < 64 → clusterDown b (homeOf b.cfg p) = false) ∧
          ∀ p, p < 64 → clusterDown s.chip (homeOf s.chip.cfg p) = false → homeOf b.cfg p = homeOf s.chip.cfg p))

/-- REGISTER_WRITE and the rules of every access (R19, R328, R331, R475): while HOST_RST_N is low, of a bad width or
alignment, or in a hole, an access ends in an error response; behind a stalled one it waits, 16 at most. RNG_CTL
takes 1 to 1,000 µs; a read of an ordinary register returns what it shows and changes nothing else. The model's
choices that it rests on: log entries 30, 72. -/
def Obligations.AccessRules : Prop :=
  ∀ (off : BitVec 23) (a : Access) (s : State), s.chip.powered = true →
    let c := s.chip.ctl
    let ended (err : Bool) (data : Word64) : State :=
      { s with chip := { s.chip with ctl := { c with err := err, data := data } } }
    (c.hostReset = true → exec (.registerWrite off a) s = .next (ended true 0)) ∧
    (c.hostReset = false → c.stall ≠ none → exec (.registerWrite off a) s = .next { s with chip := { s.chip with
      ctl := { c with behind := if c.behind.length < 16 then c.behind ++ [(off.toNat, a)] else c.behind } } }) ∧
    (c.hostReset = false → c.stall = none →
      (a.size ≠ 8 ∨ off.toNat % 8 ≠ 0 ∨ inHole off.toNat = true →
        exec (.registerWrite off a) s = .next (ended true 0)) ∧
      (a.size = 8 → a.write = true → off.toNat = 0x0A0 →
        let n := fld a.data 0 10
        (halted s.chip = true ∨ n = 0 ∨ 1000 < n → exec (.registerWrite off a) s = .next (ended true 0)) ∧
        (halted s.chip = false → 1 ≤ n → n ≤ 1000 → exec (.registerWrite off a) s = .next { s with chip := { s.chip with
          rngStallMax := n, ctl := { c with err := false, data := 0 } } })) ∧
      (a.size = 8 → a.write = false → off.toNat % 8 = 0 → inHole off.toNat = false → off.toNat ≠ 0x1000 →
        off.toNat ≠ 0x040 → ¬ (0x2800 ≤ off.toNat ∧ off.toNat < 0x3000) →
        exec (.registerWrite off a) s = .next (ended false (regRead s off.toNat))))

/-- MB_COMMAND_WRITE, MB_DOORBELL and MB_DONE (R241, R242): a word lands in the command area of a FREE slot; a write
to one that is not FREE ends in an error and is counted. The doorbell submits the FREE slots it names in ascending
order; MB_DONE frees the DONE ones. No other mailbox changes. -/
def Obligations.MailboxSlots : Prop :=
  ∀ (mb : Fin 1028) (s : State), s.chip.powered = true → s.chip.ctl.hostReset = false → s.chip.ctl.stall = none →
    let m := getMb s.chip mb
    let slot (m : Mailbox) (i : Nat) : MbSlot := Tbl.get {} m.slots i
    let ownOnly (b : Chip) : Prop :=
      (∀ k, k ≠ mb.val → getMb b k = getMb s.chip k) ∧ b = { s.chip with mbs := b.mbs, ctl := b.ctl }
    (∀ a : Access, a.size = 8 → a.off.val % 8 = 0 → a.write = true → a.off.val < 0x400 →
      let i := a.off.val / 0x80
      ((slot m i).st = .free → ∃ b, exec (.mbCommandWrite mb a) s = .next { s with chip := b } ∧ ownOnly b ∧
        b.ctl.err = false ∧ (getMb b mb).order = m.order ∧
        (∀ k, slot (getMb b mb) k = if k = i then
          { slot m i with cmd := setFld (slot m i).cmd (8 * (a.off.val % 0x80)) 64 a.data.toNat } else slot m k)) ∧
      ((slot m i).st ≠ .free → ∃ b, exec (.mbCommandWrite mb a) s = .next { s with chip := b } ∧ ownOnly b ∧
        b.ctl.err = true ∧ getMb b mb = { m with badwrite := min 65535 (m.badwrite + 1) })) ∧
    (∀ data : Word64, ∃ b, exec (.mbDoorbell mb data) s = .next { s with chip := b } ∧ ownOnly b ∧ b.ctl.err = false ∧
      (getMb b mb).order = m.order ++ (List.range 8).filter fun i => data.getLsbD i && decide ((slot m i).st = .free) ∧
      (∀ i, slot (getMb b mb) i = if i < 8 ∧ data.getLsbD i = true ∧ (slot m i).st = .free then
        { slot m i with st := .submitted, epoch := if mb.val < 1024 then (getTenant s.chip mb).epoch else 0 }
        else slot m i)) ∧
    (∀ data : Word64, ∃ b, exec (.mbDone mb data) s = .next { s with chip := b } ∧ ownOnly b ∧ b.ctl.err = false ∧
      (getMb b mb).order = m.order ∧
      (∀ i, slot (getMb b mb) i = if i < 8 ∧ data.getLsbD i = true ∧ (slot m i).st = .done then
        { slot m i with st := .free } else slot m i))

/-- ATT_EN_WRITE, ATTENTION_TRANSFER and JOB_END (R249, R256, R257, R336): a write enables the defined causes it sets;
the host takes the head of the queue, and what stood behind it keeps its order; the due result of a running job is
stored, the oldest unread one of sixteen giving way to it, and JOB is pending or queued, except during a handover. The
model's choices that it rests on: log entry 66. -/
def Obligations.AttentionAndJobs : Prop :=
  ∀ (s : State), s.chip.powered = true →
    (∀ data : Word64, s.chip.ctl.hostReset = false → s.chip.ctl.stall = none →
      (∀ mb : Fin 1028, ∃ b, exec (.attEnWrite (.mailbox mb) data) s = .next { s with chip := b } ∧
        b.ctl.err = false ∧ (getMb b mb).attEn = fld data 0 16 &&& (if mb.val = 1024 then 0x0E
          else if mb.val = 1025 ∨ mb.val = 1026 then 0x86 else 0x06) ∧ b.faults.attEn = s.chip.faults.attEn ∧
        b.cfg = s.chip.cfg ∧ (∀ k, k ≠ mb.val → (getMb b k).attEn = (getMb s.chip k).attEn)) ∧
      (∃ b, exec (.attEnWrite .bramble data) s = .next { s with chip := b } ∧ b.ctl.err = false ∧
        b.brambleEn = fld data 0 16 &&& 0x20 ∧ (∀ k, (getMb b k).attEn = (getMb s.chip k).attEn)) ∧
      (∃ b, exec (.attEnWrite .event data) s = .next { s with chip := b } ∧ b.ctl.err = false ∧
        b.recorder.attEn = fld data 0 16 &&& 0x40 ∧ (∀ k, (getMb b k).attEn = (getMb s.chip k).attEn)) ∧
      (∃ b, exec (.attEnWrite .fault data) s = .next { s with chip := b } ∧ b.ctl.err = false ∧
        b.faults.attEn = fld data 0 16 &&& 0x10 ∧ (∀ k, (getMb b k).attEn = (getMb s.chip k).attEn))) ∧
    (s.chip.ctl.hostReset = true → exec .attentionTransfer s = .next s) ∧
    (∀ x rest, s.chip.ctl.hostReset = false → s.chip.ctl.att = x :: rest →
      ∃ b, exec .attentionTransfer s = .next { s with chip := b } ∧ rest <+: b.ctl.att ∧ b.ctl.att.length ≤ max 64 rest.length ∧
        b.cfg = s.chip.cfg ∧ b.ports = s.chip.ports ∧ b.keys = s.chip.keys) ∧
    (∀ h : BitVec 32,
      let jobs := (getMb s.chip (handleMb h)).jobs
      (dueResult s.chip h = none ∨ s.chip.fw.handover = true → exec (.jobEnd h) s = .next s) ∧
      (∀ r j rest, dueResult s.chip h = some r → s.chip.fw.handover = false →
        takeFirst (fun j : Job => decide (j.handle = h) && isRunning j) jobs = some (j, rest) →
        let stored := rest ++ [{ j with due := none, result := some r }]
        ∃ b, exec (.jobEnd h) s = .next { s with chip := b } ∧
          ((jobs.filter fun j => !isRunning j).length < 16 → (getMb b (handleMb h)).jobs = stored) ∧
          (∀ old left, 16 ≤ (jobs.filter fun j => !isRunning j).length →
            takeFirst (fun j : Job => !isRunning j) stored = some (old, left) → (getMb b (handleMb h)).jobs = left) ∧
          ((getMb b (handleMb h)).attPend.testBit 2 = true ∨ (handleMb h, 2) ∈ b.ctl.att) ∧
          (∀ k, k ≠ handleMb h → (getMb b k).jobs = (getMb s.chip k).jobs) ∧ b.cfg = s.chip.cfg ∧ b.keys = s.chip.keys))

/-- CFG_COMMIT_GO, CFG_COMMIT_DISCARD, STAGED_REGISTER_WRITE and CFG_COMMIT_APPLY (R330, R331): a staged copy takes a
value whose every field is in range, else the access errs; a write stalls while a commit runs; the commit puts every
dirty copy in force as one generation in the owner's turn, and clears the marks. The model's choices that it rests
on: log entries 67, 82. -/
def Obligations.StagedConfiguration : Prop :=
  ∀ (s : State), s.chip.powered = true →
    let q := s.chip.quince
    let c := s.chip.ctl
    let okCtl : Ctl := { c with err := false, data := 0 }
    (c.hostReset = false → c.stall = none →
      exec .cfgCommitGo s = .next { s with chip := { s.chip with quince := { q with commitBusy := true }, ctl := okCtl } } ∧
      exec .cfgCommitDiscard s = .next { s with chip := { s.chip with
        quince := { q with staged := [], dirty := [] }, ctl := okCtl } } ∧
      (∀ (off : Fin 4096) (data : Word64), stagedOff off = true →
        (halted s.chip = true → exec (.stagedRegisterWrite off data) s = .next { s with chip := { s.chip with
          ctl := { c with err := true, data := 0 } } }) ∧
        (halted s.chip = false → q.commitBusy = true → exec (.stagedRegisterWrite off data) s = .next { s with chip :=
          { s.chip with ctl := { c with stall := some (.staged off data) } } }) ∧
        (halted s.chip = false → q.commitBusy = false → stagedOk off data = false →
          exec (.stagedRegisterWrite off data) s = .next { s with chip := { s.chip with
            ctl := { c with err := true, data := 0 } } }) ∧
        (halted s.chip = false → q.commitBusy = false → stagedOk off data = true →
          ∃ b, exec (.stagedRegisterWrite off data) s = .next { s with chip := b } ∧ b.cfg = s.chip.cfg ∧
            b.ctl = okCtl ∧ off.val ∈ b.quince.dirty ∧ stagedCopy b off = stagedMask off data ∧
            (∀ o, o ≠ off.val → stagedCopy b o = stagedCopy s.chip o)))) ∧
    (serving s.chip = false ∨ q.commitBusy = false ∨ nextMailbox s.chip ≠ some 1024 →
      exec .cfgCommitApply s = .next s) ∧
    (serving s.chip = true → q.commitBusy = true → nextMailbox s.chip = some 1024 → c.stall = none →
      ∃ t, exec .cfgCommitApply s = .next t ∧ t.aon = s.aon ∧ t.otp = s.otp ∧
        t.chip.quince.commitBusy = false ∧ t.chip.quince.commitResult = commitVerdict s.chip ∧
        (commitVerdict s.chip ≠ 0 → t.chip.cfg = s.chip.cfg ∧ t.chip.quince.dirty = q.dirty) ∧
        (commitVerdict s.chip = 0 → t.chip.quince.dirty = [] ∧
          (∀ off, off ∈ q.dirty → cfgReg t.chip.cfg off = Tbl.get (stagedReset off) q.staged off) ∧
          (∀ off, off ∉ q.dirty → cfgReg t.chip.cfg off = cfgReg s.chip.cfg off) ∧
          (q.dirty ≠ [] → t.chip.admitGen = (s.chip.admitGen + 1) % 65536 ∧ t.chip.cfgOld = s.chip.cfg)))

/-- PORT_CREDIT_WRITE and PORT_TIMERS_WRITE (R44, R331, R334): pool sizes that sum to 256 with none below 8 are held
for the next enable, and a FLIT_GAP from 1 to 255 applies at once; any other value, or a reaction in force, ends the
access in an error and changes nothing. KEY_DATA_WRITE, KSHARE_WRITE, BLOB_WRITE and STAGING_WINDOW_WRITE (R120,
R129, R262, R341): each sets its one word with its written flag; under a reaction key and blob words are discarded,
and a staging word is discarded without a session or while one of its writes runs. -/
def Obligations.RegistersWritten : Prop :=
  (∀ (p : Fin 64) (data : Word64) (s : State), s.chip.powered = true → s.chip.ctl.hostReset = false →
     s.chip.ctl.stall = none →
     let pool (i : Nat) := fld data (9 * i) 9
     let good : Prop := pool 0 + pool 1 + pool 2 + pool 3 = 256 ∧ 8 ≤ pool 0 ∧ 8 ≤ pool 1 ∧ 8 ≤ pool 2 ∧ 8 ≤ pool 3
     let erred : State := { s with chip := { s.chip with ctl := { s.chip.ctl with err := true, data := 0 } } }
     (halted s.chip = true ∨ ¬ good → exec (.portCreditWrite p data) s = .next erred) ∧
     (halted s.chip = false → good → ∃ a, PortNow s.chip a p { getPort s.chip p with
         portCredit := BitVec.ofNat 64 (fld data 0 36) } ∧
       exec (.portCreditWrite p data) s = .next { s with chip := { a with ctl := { a.ctl with err := false, data := 0 } } }) ∧
     (halted s.chip = true ∨ fld data 0 8 = 0 → exec (.portTimersWrite data) s = .next erred) ∧
     (halted s.chip = false → 0 < fld data 0 8 → exec (.portTimersWrite data) s = .next { s with chip := { s.chip with
       flitGap := fld data 0 8, ctl := { s.chip.ctl with err := false, data := 0 } } })) ∧
  (∀ (data : Word64) (s : State), s.chip.powered = true → s.chip.ctl.hostReset = false → s.chip.ctl.stall = none →
     let done (a : Chip) : State := { s with chip := { a with ctl := { a.ctl with err := false, data := 0 } } }
     (∀ (t : Fin 1024) (w : Fin 8),
       (halted s.chip = true → exec (.keyDataWrite t w data) s = .next (done s.chip)) ∧
       (halted s.chip = false → ∃ a, exec (.keyDataWrite t w data) s = .next (done a) ∧
         MbNow s.chip a t { getMb s.chip t with keyData := Tbl.set none (getMb s.chip t).keyData w (some data) })) ∧
     (∀ (o : Fin 2) (w : Fin 8),
       (halted s.chip = true → exec (.kshareWrite o w data) s = .next (done s.chip)) ∧
       (halted s.chip = false → ∃ a, exec (.kshareWrite o w data) s = .next (done a) ∧
         MbNow s.chip a (1025 + o.val) { getMb s.chip (1025 + o.val) with
           keyData := Tbl.set none (getMb s.chip (1025 + o.val)).keyData w (some data) })) ∧
     (∀ (mb : Fin 1028) (w : Fin 16),
       (halted s.chip = true ∨ 1024 < mb.val → exec (.blobWrite mb w data) s = .next (done s.chip)) ∧
       (halted s.chip = false → mb.val ≤ 1024 → ∃ a, exec (.blobWrite mb w data) s = .next (done a) ∧
         MbNow s.chip a mb { getMb s.chip mb with blob := Tbl.set none (getMb s.chip mb).blob w (some data) })) ∧
     (∀ off : Fin 131072,
       (s.chip.fw.stage = none → exec (.stagingWindowWrite off data) s = .next (done s.chip)) ∧
       (∀ g, s.chip.fw.stage = some g → g.jobs.any (·.writing) = true →
         exec (.stagingWindowWrite off data) s = .next (done s.chip)) ∧
       (∀ g, s.chip.fw.stage = some g → g.jobs.any (·.writing) = false →
         exec (.stagingWindowWrite off data) s = .next (done { s.chip with
           fw := { s.chip.fw with window := Tbl.set 0 s.chip.fw.window off data } }))))

/-- FAULT_STICKY_CLEAR and ALARM_MAP_CLEAR (R238, R331, R339): a sticky bit written as 1 clears, unless a HALT or
ZEROIZE holds it; a bit of the alarm map written as 1 clears, but not while a reaction is in force; every other bit
stays. The model's choices that it rests on: log entry 36. -/
def Obligations.WriteOneClears : Prop :=
  ∀ (data : Word64) (s : State), s.chip.powered = true → s.chip.ctl.hostReset = false → s.chip.ctl.stall = none →
    (∀ w : Fin 64, ∃ b, exec (.faultStickyClear w data) s = .next { s with chip := b } ∧
      b = { s.chip with faults := b.faults, ctl := { s.chip.ctl with err := false, data := 0 } } ∧
      ∀ ix, getSticky b ix =
        if ix / 64 = w.val ∧ data.getLsbD (ix % 64) = true ∧ (getSticky s.chip ix).locked = false then
          { getSticky s.chip ix with bit := false } else getSticky s.chip ix) ∧
    (∀ w : Fin 16,
      (halted s.chip = true → exec (.alarmMapClear w data) s = .next { s with chip := { s.chip with
        ctl := { s.chip.ctl with err := false, data := 0 } } }) ∧
      (halted s.chip = false → ∃ b, exec (.alarmMapClear w data) s = .next { s with chip := b } ∧
        b = { s.chip with tenants := b.tenants, ctl := { s.chip.ctl with err := false, data := 0 } } ∧
        ∀ t, getTenant b t =
          if t / 64 = w.val ∧ data.getLsbD (t % 64) = true then { getTenant s.chip t with alarm := false }
          else getTenant s.chip t))

/-- RNG_DATA_READ and RNG_STALL_EXPIRY (R337, R405): a seeded unit answers eight DRBG bytes and advances; an unseeded
one stalls the read until seeding or RNG_STALL_MAX, when it ends in an error; failed, or under a reaction, it errs at
once. EVT_CURSOR_WRITE, EVT_WINDOW_READ and EVT_WINDOW_FILL_DONE (R338): a write of the cursor starts a fill; a read
stalls while it runs; at its end position i of the window holds Pip EVT_CURSOR + i, or zero beyond the last. The
model's choices that it rests on: log entries 2, 80. -/
def Obligations.ReadsThatAct : Prop :=
  (∀ (s : State), s.chip.powered = true → s.chip.ctl.hostReset = false →
     let c := s.chip.ctl
     let r := s.chip.rng
     (c.stall = none → halted s.chip = true ∨ r.failed = true ∨ r.noData = true →
       exec .rngDataRead s = .next { s with chip := { s.chip with ctl := { c with err := true, data := 0 } } }) ∧
     (c.stall = none → halted s.chip = false → r.failed = false → r.noData = false → r.seeded = true →
       let g := drbgGenerate r.key r.v 8
       exec .rngDataRead s = .next { s with chip := { s.chip with
         rng := { r with key := g.2.1, v := g.2.2, calls := r.calls + 1 }
         ctl := { c with err := false, data := BitVec.ofNat 64 (ofLE g.1) } } }) ∧
     (c.stall = none → halted s.chip = false → r.failed = false → r.noData = false → r.seeded = false →
       exec .rngDataRead s = .next { s with chip := { s.chip with ctl := { c with stall := some (.rng s.chip.cycle) } } }) ∧
     (∀ since, c.stall = some (.rng since) →
       (s.chip.cycle < since + s.chip.rngStallMax * usCycles s.chip → exec .rngStallExpiry s = .next s) ∧
       (since + s.chip.rngStallMax * usCycles s.chip ≤ s.chip.cycle → c.behind = [] →
         exec .rngStallExpiry s = .next { s with chip := { s.chip with
           ctl := { c with stall := none, err := true, data := 0 } } })) ∧
     (c.stall = none → exec .rngStallExpiry s = .next s)) ∧
  (∀ (s : State), s.chip.powered = true → s.chip.ctl.hostReset = false → s.chip.ctl.stall = none →
     let c := s.chip.ctl
     let r := s.chip.recorder
     (∀ data : Word64, exec (.evtCursorWrite data) s = .next { s with chip := { s.chip with
       recorder := { r with cursor := fld data 0 32, loading := true }, ctl := { c with err := false, data := 0 } } }) ∧
     (∀ i : Fin 256, (r.loading = true → exec (.evtWindowRead i) s = .next { s with chip := { s.chip with
         ctl := { c with stall := some (.window i) } } }) ∧
       (r.loading = false → exec (.evtWindowRead i) s = .next { s with chip := { s.chip with
         ctl := { c with err := false
                         data := BitVec.ofNat 64 (fld (r.window.getD (i.val / 4) 0) (64 * (i.val % 4)) 64) } } })) ∧
     (r.loading = false → exec .evtWindowFillDone s = .next s) ∧
     (r.loading = true → exec .evtWindowFillDone s = .next { s with chip := { s.chip with
       recorder := { r with loading := false
                            window := (List.range 64).map fun i => (pipAt s (r.cursor + i)).getD 0 } } }))

/-- TENANT_SWEEP_DONE, TENANT_PURGE_DONE and AUTH_INTERVAL (R233, R235, R236, R238): the end of a reset's sweep makes
the tenant ENABLED or FAULTED, or starts the purge of a disable; the end of the purge makes it DISABLED and leaves
its job a result; each second the failure counts restart. The model's choices that it rests on: log entries 19, 79. -/
def Obligations.TenantsTurn : Prop :=
  ∀ (s : State), s.chip.powered = true →
    (∀ t : Fin 1024,
      let tn := getTenant s.chip t
      (tn.st ≠ .resetting ∨ tn.purging = true → exec (.tenantSweepDone t) s = .next s) ∧
      (tn.st = .resetting → tn.purging = false →
        ∃ b, exec (.tenantSweepDone t) s = .next { s with chip := b } ∧ b.cfg = s.chip.cfg ∧ b.ports = s.chip.ports ∧
          (∀ j, j ≠ t.val → getTenant b j = getTenant s.chip j) ∧
          (tn.toward ≠ 2 → getTenant b t = { tn with st := if tn.toward = 3 then .faulted else .enabled } ∧
            b.keys = s.chip.keys) ∧
          (tn.toward = 2 → (getTenant b t).st = .resetting ∧ (getTenant b t).purging = true ∧
            (getTenant b t).kekLeft = activeKeks s.chip t ∧
            (getTenant b t).purged = ((quotaSlots s.chip t).length, 0, (looseEntries s.chip t).length)) ∧
          (∀ x old, s.chip.quince.exec = some x → x.wait = .sweep t old → b.quince.exec = none)) ∧
      (tn.st ≠ .resetting ∨ tn.purging = false ∨ tn.kekLeft ≠ [] ∨ quotaSlots s.chip t ≠ [] ∨ looseEntries s.chip t ≠ [] →
        exec (.tenantPurgeDone t) s = .next s) ∧
      (tn.st = .resetting → tn.purging = true → tn.kekLeft = [] → quotaSlots s.chip t = [] → looseEntries s.chip t = [] →
        ∃ b, exec (.tenantPurgeDone t) s = .next { s with chip := b } ∧
          b = { s.chip with tenants := b.tenants, mbs := b.mbs } ∧
          OnlyAt getTenant s.chip b t { tn with st := .disabled, purging := false, job := none } ∧
          (∀ h, tn.job = some h → (∃ j ∈ (getMb s.chip (handleMb h)).jobs, j.handle = h ∧ isRunning j = true) →
            dueResult b h = some (0, 0, purgeResult t tn.purged)))) ∧
    (nowUs s.chip < s.chip.authSince + 1000000 → exec .authInterval s = .next s) ∧
    (s.chip.authSince + 1000000 ≤ nowUs s.chip →
      ∃ b, exec .authInterval s = .next { s with chip := b } ∧
        b = { s.chip with authSince := nowUs s.chip / 1000000 * 1000000, tenants := b.tenants } ∧
        ∀ t, (getTenant b t).authCount = 0 ∧ (getTenant b t).authAlarmed = false)

/-- FAULT_MESSAGE (R342 to R345, R347, R349, R350, R358, R377): a message of a disabled or undefined source is not
handled; one delivered, formed at the collector or waiting in a lane, is shown in FAULT_LAST with its SEQ. A
consequential message, a NOTE kind and the first of a counted kind are only recorded; any other sets the sticky bit of
its source, and its effective severity orders the reset or fence of its unit, a tenant fault, HALT or ZEROIZE. Of a
message that arrives damaged FK_NET_UE is shown instead; one corrected is followed by FK_NET_CE. Data that cannot be
read, or that a poisoned read stands for (R441), ends the request that needs it, admitted or waiting for admission, and
discards the row; an error in Quince's mirror rebuilds it. The model's choices that it rests on: log entries 10, 40, 165. -/
def Obligations.FaultCollected : Prop :=
  (∀ (src : BitVec 16) (kind : Byte) (ctx : BitVec 32) (ix : Nat) (s : State), s.chip.powered = true →
    s.chip.ctl.stall = none →
    let o (damage : List Damage) := Instr.faultMessage (.formed src kind ctx damage)
    (∀ damage, rindDisabled s src.toNat = true ∨ kindDefined kind.toNat = false → exec (o damage) s = .next s) ∧
    (srcSticky src.toNat = none → exec (o []) s = .next s) ∧
    (∀ damage, kind.toNat ≠ fkSramUe → kind.toNat ≠ fkProtocol → exec (o damage) s = exec (o []) s) ∧
    (kind.toNat = fkProtocol → exec (o [.mirror]) s = exec (o []) s) ∧
    (srcSticky src.toNat = some ix → rindDisabled s src.toNat = false → kindDefined kind.toNat = true →
      ¬ (src.toNat = srcSub 6 ∧ kind.toNat = fkDrbg) →
      (getSrc s.chip src.toNat).pendNote = none → (getSrc s.chip src.toNat).pendOther = none →
      let f := getSrc s.chip src.toNat
      let m : FaultMsg := { src := src.toNat, kind := kind.toNat, ctx := ctx, seq := (f.seq + 1) % 256 }
      let first := firstCounted s.chip f kind.toNat
      let eff := effSev s m first ix
      let quiet : Prop :=
        (eff ≤ 2 ∧ masked s.chip src.toNat kind.toNat ctx = true) ∨ kindNote kind.toNat = true ∨ first = true
      ∃ t, exec (o []) s = .next t ∧ t.chip.faults.last = faultWord m ∧ t.flash0 = s.flash0 ∧ t.flash1 = s.flash1 ∧
        (quiet → t.chip.faults.sticky = s.chip.faults.sticky ∧ t.chip.faults.units = s.chip.faults.units ∧
          t.chip.faults.react = s.chip.faults.react ∧ t.chip.dstate = s.chip.dstate ∧ t.chip.keys = s.chip.keys ∧
          t.chip.tenants = s.chip.tenants ∧ t.otp = s.otp ∧ t.aon = s.aon) ∧
        (¬ quiet → (getSticky t.chip ix).bit = true ∧
          (eff = 0 → t.chip.faults.units = s.chip.faults.units ∧ t.chip.dstate = s.chip.dstate ∧ t.chip.keys = s.chip.keys) ∧
          (∀ id, eff = 1 → halted s.chip = false → srcUnit src.toNat = some id →
            let plan := planOrder s.chip id (kindAction kind.toNat) 1
            (plan.1 = 1 → (getUnit t.chip id).resetting = true ∧ (getUnit t.chip id).live = .fenced ∧
              (getUnit t.chip id).sgen = ((getUnit s.chip id).sgen + 1) % 65536) ∧
            (plan.1 = 2 → (getUnit t.chip id).live = .down ∧ (getUnit t.chip id).cause = plan.2) ∧
            (plan.1 = 3 → (getUnit t.chip id).fenceNext = some plan.2)) ∧
          (eff = 2 → halted s.chip = false → (getTenant s.chip (ctxTenantOf ctx)).st = .enabled →
            (getTenant t.chip (ctxTenantOf ctx)).st = .resetting ∧ (getTenant t.chip (ctxTenantOf ctx)).toward = 3) ∧
          (eff = 3 → halted s.chip = false → t.chip.faults.react = 1 ∧ t.chip.dstate = 2 ∧
            t.chip.faults.cause = src.toNat ∧ t.aon.zeroize = true ∧ t.chip.keys.ck = none ∧ t.otp = s.otp) ∧
          (eff = 4 → s.chip.faults.react ≠ 2 → t.chip.faults.react = 2 ∧ t.chip.dstate = 3 ∧
            t.chip.faults.cause = src.toNat ∧ t.aon.zeroize = true ∧
            (s.chip.keys.secretGen < 4 → t.otp.killed.getLsbD s.chip.keys.secretGen = true))))) ∧
  (∀ (lane : Fin 4) (s : State), s.chip.powered = true → s.chip.ctl.stall = none →
    let net (kind : Nat) (ctx : BitVec 32) := Instr.faultMessage (.formed (BitVec.ofNat 16 (srcSub 2)) (BitVec.ofNat 8 kind) ctx [])
    (laneHead s.chip lane = none → ∀ o, o = .waiting lane ∨ o = .corrected lane ∨ o = .unreadable lane →
      exec (.faultMessage o) s = .next s) ∧
    (∀ src note m b, laneHead s.chip lane = some (src, note) → takePending s.chip src note = some (m, b) →
      ((srcSticky src).isSome = true → ∃ t, exec (.faultMessage (.waiting lane)) s = .next t ∧ t.chip.faults.last = faultWord m ∧
        (t.chip.powered = true → exec (.faultMessage (.corrected lane)) s = exec (net fkNetCe (ctxPlain 0)) t)) ∧
      exec (.faultMessage (.unreadable lane)) s = exec (net fkNetUe (ctxPlain lane.val)) { s with chip := b })) ∧
  (∀ (src : BitVec 16) (kind : Nat) (ctx : BitVec 32) (v : Damage) (s : State), s.chip.powered = true →
    kind = fkSramUe ∨ kind = fkProtocol ∧ v ≠ .mirror →
    rindDisabled s src.toNat = false → (srcSticky src.toNat).isSome = true →
    let o (damage : List Damage) := Instr.faultMessage (.formed src (BitVec.ofNat 8 kind) ctx damage)
    let b := endVictim src.toNat s.chip v
    exec (o [v]) s = exec (o []) { s with chip := b } ∧
    (∀ (p : Fin 64) (c : Fin 4096) (q : Req), v = .request p c → ((getPort s.chip p).reqs.map (·.rid)).Nodup →
      (getPort s.chip p).reqs.find? (fun q => q.ctx = c.val && !q.dead) = some q →
      ∀ q' ∈ (getPort b p).reqs, q'.rid = q.rid → q'.dead = true) ∧
    (∀ (u : Fin 64) (id : RowId) (row : Row), v = .row u id → isCurrantSrc src.toNat = true →
      ((getPort s.chip u).cur.rows.filter (·.id = id)).length = 1 → findRow s.chip u id = some row →
      findRow b u id = none) ∧
    (∀ (p : Fin 64) (c : Fin 4) (i : Fin 256) (w : IMsg), v = .waiting p c i → (getIng s.chip p c).waiting[i.val]? = some w →
      (getIng b p c).waiting = (getIng s.chip p c).waiting.eraseIdx i.val ∧
      ∃ m, (getPort b p).msgs = (getPort s.chip p).msgs ++ [m] ∧ m.kind = 2 ∧ m.sb = w.sb ∧ m.cls = c ∧
        m.tail = some (stAborted, 0x48)) ∧
    (v = .mirror → src.toNat = 0x2017 →
      ∀ id, (getUnit b id).mirror = (getUnit s.chip id).live ∧ (getUnit b id).live = (getUnit s.chip id).live ∧
        (getUnit b id).msgen = (getUnit s.chip id).sgen))

/-- UNIT_RESET_DONE and SETTLE_WINDOW_CLOSE (R352, R353, R358): a unit whose reset ends is in service again, its SGEN
advanced and its settle window running, unless a fence waited for that end, whose window runs too; a window closes when
SETTLE has passed.
The model's choices that it rests on: log entry 18. -/
def Obligations.UnitsReturn : Prop :=
  ∀ (unit : BitVec 16) (s : State), s.chip.powered = true → s.chip.ctl.stall = none →
    let u := getUnit s.chip unit.toNat
    (u.resetting = false → exec (.unitResetDone unit) s = .next s) ∧
    (u.resetting = true → u.fenceNext = none →
      ∃ b, exec (.unitResetDone unit) s = .next { s with chip := b } ∧ b.cfg = s.chip.cfg ∧ b.ports = s.chip.ports ∧
        (∀ j, j ≠ unit.toNat → getUnit b j = getUnit s.chip j) ∧
        getUnit b unit.toNat = { u with
          live := afterReset s.chip unit.toNat, mirror := afterReset s.chip unit.toNat, sgen := (u.sgen + 1) % 65536
          msgen := (u.sgen + 1) % 65536, cause := 0, resetting := false, settleFrom := some s.chip.cycle }) ∧
    (∀ cause, u.resetting = true → u.fenceNext = some cause →
      ∃ t, exec (.unitResetDone unit) s = .next t ∧ (getUnit t.chip unit.toNat).live = .down ∧
        (getUnit t.chip unit.toNat).cause = cause ∧ (getUnit t.chip unit.toNat).resetting = false ∧
        (getUnit t.chip unit.toNat).fenceNext = none ∧ t.chip.cfg = s.chip.cfg ∧
        (getUnit t.chip unit.toNat).settleFrom = some s.chip.cycle) ∧
    (u.settle = false ∨ settleOpen s.chip unit.toNat = true → exec (.settleWindowClose unit) s = .next s) ∧
    (u.settle = true → settleOpen s.chip unit.toNat = false →
      ∃ b, exec (.settleWindowClose unit) s = .next { s with chip := b } ∧
        b = { s.chip with faults := { s.chip.faults with units := b.faults.units } } ∧
        OnlyAt getUnit s.chip b unit.toNat { u with settle := false, settleFrom := none })

/-- HALT_EGRESS_TIMEOUT and ZEROIZE_SWEEP_DONE (R134, R355): 20 µs after a HALT no egress buffer holds a message and
the pins are low; at the end of the physical sweep every key slot and line key entry is EMPTY and no key material is
left. The model's choices that it rests on: log entry 41. -/
def Obligations.ReactionsEnd : Prop :=
  ∀ (s : State), s.chip.powered = true →
    (halted s.chip = false ∨ s.chip.faults.closing = false ∨
      s.chip.cycle < s.chip.faults.haltAt + 20 * usCycles s.chip → exec .haltEgressTimeout s = .next s) ∧
    (halted s.chip = true → s.chip.faults.closing = true →
      s.chip.faults.haltAt + 20 * usCycles s.chip ≤ s.chip.cycle →
      ∃ b, exec .haltEgressTimeout s = .next { s with chip := b } ∧
        b = { s.chip with faults := { s.chip.faults with closing := false }, ports := b.ports } ∧
        ∀ p, (getPort b p).msgs = [] ∧ (getPort b p).pe = {}) ∧
    (s.chip.faults.sweeping = false → exec .zeroizeSweepDone s = .next s) ∧
    (s.chip.faults.sweeping = true →
      ∃ t, exec .zeroizeSweepDone s = .next t ∧ t.chip.faults.sweeping = false ∧ t.chip.cfg = s.chip.cfg ∧
        t.flash0 = s.flash0 ∧ t.flash1 = s.flash1 ∧
        (∀ k, dState (slotDesc t.chip k) = ssEmpty) ∧ (∀ e, ldState (lineDesc t.chip e) = ssEmpty) ∧
        (∀ m, (getMb t.chip m).keyData = []) ∧ t.chip.keys.cache = [] ∧ t.chip.keys.codes = [] ∧
        t.chip.keys.lcodes = [] ∧ t.chip.keys.pins = [] ∧ t.chip.keys.lstore = [] ∧ t.chip.keys.keks = [] ∧
        t.chip.keys.gtkCur = none ∧ t.chip.keys.gtkPrev = none)

/-- KAT_RUN, KAT_FORCE, STANDBY_ROTATE and SHADOW_WALKER (R367, R368, R370, R391, R392, R400): a test runs where the unit is
free, and a forced one 9 ms after the last in a cycle of its own; a failed test or a disagreement of the two copies of
an entry puts a message of its source on the network. A failed test of the random unit within 1 s of another makes it
FAILED, and a passed one ends FAILED with four sources healthy. Each 1 ms the standby role of a line port passes on. That
the random unit's test is a KAT_RUN of its source (log entry 140), its state katOk and what a failure does to it (log entry
84), that a forced test of a line slice takes two core cycles of the fetch queue (log entry 133, DEDUCED), and what the flop
arrays hold beside their values (log entry 166, DEDUCED) are the model's choices; so is log entry 31. -/
def Obligations.SelfChecks : Prop :=
  ∀ (s : State), s.chip.powered = true →
    (∀ (unit : BitVec 16) (pass : Bool), unit.toNat ≠ srcSub 6 →
      let id := unit.toNat
      let u := getUnit s.chip id
      let seq := ((getSrc s.chip id).seq + 1) % 256
      let timed : Prop := isStreamSlice id = true ∧ unitEff u = .active
      let tested (b : Chip) : Prop :=
        b = { s.chip with
          faults := { s.chip.faults with units := b.faults.units, srcs := b.faults.srcs, net := b.faults.net }
          clusters := b.clusters, ports := b.ports, lines := b.lines } ∧
        OnlyAt getUnit s.chip b id { u with katAt := s.chip.cycle } ∧
        (∀ c, c ≠ sliceCluster id → getCluster b c = getCluster s.chip c) ∧
        (¬ timed → b.clusters = s.chip.clusters ∧ b.ports = s.chip.ports) ∧
        (pass = true → b.faults.srcs = s.chip.faults.srcs ∧ b.faults.net = s.chip.faults.net) ∧
        (pass = false → (getSrc b id).seq = seq ∧ (getSrc b id).pendOther.isSome = true ∧
          ((getSrc s.chip id).pendOther = none → (getSrc b id).pendOther = some (fkKat, ctxPlain 0, seq)) ∧
          ∀ j, j ≠ id → getSrc b j = getSrc s.chip j)
      (katUnit id = false ∨ unitOut s.chip id = true → exec (.katRun unit pass) s = .next s ∧ exec (.katForce unit pass) s = .next s) ∧
      (katFree s.chip id = false → exec (.katRun unit pass) s = .next s) ∧
      (katUnit id = true → unitOut s.chip id = false → katFree s.chip id = true →
        ∃ b, exec (.katRun unit pass) s = .next { s with chip := b } ∧ tested b ∧ b.lines = s.chip.lines) ∧
      (s.chip.cycle < u.katAt + 9000 * usCycles s.chip ∨ katForced s.chip id = false → exec (.katForce unit pass) s = .next s) ∧
      (katUnit id = true → unitOut s.chip id = false → u.katAt + 9000 * usCycles s.chip ≤ s.chip.cycle →
        katForced s.chip id = true →
        ∃ b, exec (.katForce unit pass) s = .next { s with chip := b } ∧ tested b ∧
          (isLineSlice id = false → b.lines = s.chip.lines) ∧
          (isLineSlice id = true →
            let l := getLine s.chip (slicePort id)
            OnlyAt getLine s.chip b (slicePort id) { l with fqStall := max l.fqStall s.chip.cycle + 2 }))) ∧
    (s.chip.ctl.stall = none →
      let run (pass : Bool) := exec (.katRun (BitVec.ofNat 16 (srcSub 6)) pass) s
      let r := s.chip.rng
      let bad : Rng := { r with katOk := false, katFailAt := some (nowUs s.chip) }
      let again : Prop := ∃ t, r.katFailAt = some t ∧ nowUs s.chip < t + 1000000
      run true = .next { s with chip := { s.chip with
        rng := { r with katOk := true, failed := r.failed && decide ((healthySloes s.chip).length < 4) } } } ∧
      (¬ again → run false = .next { s with chip := { s.chip with rng := bad } }) ∧
      (again → ∃ b, run false = .next { s with chip := b } ∧
        b = { s.chip with faults := b.faults, rng := { bad with failed := true, seeded := r.seeded && r.failed } } ∧
        (r.failed = false → (getSrc b (srcSub 6)).pendOther.isSome = true))) ∧
    (∀ p : Fin 32,
      let l := getLine s.chip p
      let due : Prop := l.rotatedAt + 1000 ≤ nowUs s.chip
      (¬ due → exec (.standbyRotate p) s = .next s) ∧
      (due → standbyLine s.chip p = none ∨ (∃ i, standbyLine s.chip p = some i ∧ nextStandby s.chip p i = none) →
        ∃ b, exec (.standbyRotate p) s = .next { s with chip := b } ∧ LineNow s.chip b p { l with rotatedAt := nowUs s.chip }) ∧
      (∀ i k, due → standbyLine s.chip p = some i → nextStandby s.chip p i = some k →
        ∃ b, exec (.standbyRotate p) s = .next { s with chip := b } ∧
          (getUnit b (srcLineSlice p i)).live = .active ∧ (getUnit b (srcLineSlice p k)).live = .spare ∧
          (∀ id, id ≠ srcLineSlice p i → id ≠ srcLineSlice p k → getUnit b id = getUnit s.chip id) ∧
          b = { s.chip with faults := { s.chip.faults with units := b.faults.units }, lines := b.lines } ∧
          OnlyAt getLine s.chip b p { l with rotatedAt := nowUs s.chip })) ∧
    (∀ (item : ShadowEntry) (upset upsetInv : BitVec 1024) (bad : Bool),
      let run := exec (.shadowWalker item upset upsetInv bad) s
      (shadowCopies s item = none → run = .next s) ∧
      (∀ v inv, shadowCopies s item = some (v, inv) →
        let w := shadowWidth item
        let src := srcSub (shadowUnit item).1
        let seq := ((getSrc s.chip src).seq + 1) % 256
        let agree : Prop := fld (v ^^^ upset) 0 w = fld (~~~(inv ^^^ upsetInv)) 0 w
        (bad = false → agree → run = .next s) ∧
        (bad = true ∨ ¬ agree → ∃ b, run = .next { s with chip := b } ∧
          b = { s.chip with faults := { s.chip.faults with srcs := b.faults.srcs, net := b.faults.net } } ∧
          (getSrc b src).pendOther.isSome = true ∧
          ((getSrc s.chip src).pendOther = none →
            (getSrc b src).pendOther = some (fkShadow, ctxPlain (shadowUnit item).2, seq)) ∧
          ∀ j, j ≠ src → getSrc b j = getSrc s.chip j)))

/-- MONITOR_TRIP, TEMP_WARN, PFAIL_LOW_CROSSING and TAMPER_LATCH_CLEAR (R381, R383 to R388): a source trips when it is
armed, not disabled and not held, and the filter of its samples is met; a trip asserts zeroize and clears the keys
directly; without main power it sets its latch and the kill-pending latch and keeps the evidence; while RIND_LOCK is
not blown a mesh or tamper source only reports. A crossing under PFAIL_N enters HALT without a kill. A reading beyond
the service range is recorded once a second. A latch clears after 2^20 passing ticks. The model's
choices that it rests on: log entries 17, 73, 119, 141. -/
def Obligations.MonitorsTrip : Prop :=
  ∀ (s : State),
    (∀ (i : Fin 24) (m : MonitorSample),
      let run := exec (.monitorTrip i m) s
      let n := noteSample s i m
      let ready : Prop := monitorFused s i = false ∧ monitorArmed s i = true ∧ sampleOf i m = true
      let met : Prop := monitorHeld s i = false ∧ filterMet s i m = true
      (¬ ready → run = .next s) ∧
      (ready → ¬ met → run = .next n) ∧
      (ready → met → s.chip.powered = true → plannedDrop s i (monitorReading s i m) = true → run = .next n) ∧
      (ready → met → s.chip.powered = true → plannedDrop s i (monitorReading s i m) = false → s.chip.ctl.stall = none →
        (getSrc s.chip (srcMonitor i)).pendOther = none →
        (aonMonitor i = false ∨ s.otp.locked = true →
          ∃ t, run = .next t ∧ t.aon.zeroize = true ∧ halted t.chip = true ∧
            t.chip.keys.vk = none ∧ t.chip.keys.tk = none ∧ t.chip.keys.ck = none ∧ t.chip.keys.lregs = [] ∧
            t.chip.rng.seeded = false ∧ t.flash0 = s.flash0 ∧ t.flash1 = s.flash1 ∧
            (aonMonitor i = true → t.aon.tripped.getLsbD i = true) ∧
            (aonMonitor i = false → t.chip.trippedOnce.getLsbD i = true)) ∧
        (aonMonitor i = true → s.otp.locked = false →
          ∃ t, run = .next t ∧ t.aon.tripped = s.aon.tripped ∧ t.aon.latch = s.aon.latch ∧
            fld t.chip.faults.last 48 16 = srcMonitor i ∧ fld t.chip.faults.last 40 8 = monitorKind i)) ∧
      (ready → met → s.chip.powered = false → s.otp.locked = false → run = .next n) ∧
      (ready → met → s.chip.powered = false → s.otp.locked = true →
        ∃ t, run = .next t ∧ t = { s with aon := t.aon } ∧ t.aon.zeroize = true ∧ t.aon.killPending = true ∧
          t.aon.tripped = s.aon.tripped ||| (1#64 <<< i.val) ∧ s.aon.latch <+: t.aon.latch ∧
          (s.aon.latch.length ≤ 6 → t.aon.latch.length = s.aon.latch.length + 2))) ∧
    (s.chip.powered = true → s.chip.pfail = true → monitorFused s 8 = false → monitorArmed s 8 = true →
      (halted s.chip = false → s.chip.ctl.stall = none →
        ∃ t, exec .pfailLowCrossing s = .next t ∧ t.aon = { s.aon with zeroize := true } ∧ t.otp = s.otp ∧
          t.chip.dstate = 2 ∧ t.chip.faults.react = 1 ∧ t.chip.faults.quiet = true ∧ t.chip.faults.cause = srcMonitor 8) ∧
      (halted s.chip = true →
        exec .pfailLowCrossing s = .next { s with aon := { s.aon with zeroize := true }, chip := logicalZeroize s.chip })) ∧
    (s.chip.powered = false ∨ s.chip.pfail = false ∨ monitorFused s 8 = true ∨ monitorArmed s 8 = false →
      exec .pfailLowCrossing s = .next s) ∧
    (∀ (site : Fin 8) (r : BitVec 16), s.chip.powered = true →
      let recent : Prop := ∃ t, Tbl.get none s.chip.tempWarned site.val = some t ∧ nowUs s.chip < t + 1000000
      (warmReading r = false ∨ recent ∨ monitorFused s site = true ∨ monitorArmed s site = false →
        exec (.tempWarn site r) s = .next s) ∧
      (warmReading r = true → ¬ recent → monitorFused s site = false → monitorArmed s site = true →
        ∃ b, exec (.tempWarn site r) s = .next { s with chip := b } ∧
          Tbl.get none b.tempWarned site.val = some (nowUs s.chip) ∧ b.cfg = s.chip.cfg ∧ b.keys = s.chip.keys ∧
          b.ports = s.chip.ports ∧ b.dstate = s.chip.dstate)) ∧
    (∀ i : Fin 24,
      let passed := (Tbl.get {} s.aon.samplers i.val).passed
      (s.aon.present = false ∨ s.aon.tripped.getLsbD i = false ∨ passed < latchTicks →
        exec (.tamperLatchClear i) s = .next s) ∧
      (s.aon.present = true → s.aon.tripped.getLsbD i = true → latchTicks ≤ passed →
        ∃ t, exec (.tamperLatchClear i) s = .next t ∧ t.otp = s.otp ∧ t.chip.dstate = s.chip.dstate ∧
          t.aon = { s.aon with tripped := s.aon.tripped &&& ~~~(1#64 <<< i.val) } ∧
          (s.chip.powered = false → t.chip = s.chip)))

/-- SLOE_FAIL, SLOE_REJOIN, DRBG_RESEED and SEEDING_DONE (R399 to R405): a source whose test has failed is unhealthy and
its failure counted, and the conditioning block in progress is dropped; with more than four out the unit is FAILED; it
rejoins after 4,096 passing samples, and FAILED ends with four sources healthy and the unit's own test passed; a reseed
that is due mixes three fresh blocks into Key and V; seeding, which needs the test passed, serves CK and the first seeds.
The model's choices that it rests on: log entries 4, 84, 140, 150, 161. -/
def Obligations.RandomUnitRuns : Prop :=
  ∀ (s : State), s.chip.powered = true → s.chip.ctl.stall = none →
    let r := s.chip.rng
    (∀ (i : Fin 8) (test : Bool),
      let o := getSloe s.chip i
      (o.due ≠ some test ∨ 3 ≤ o.fails → exec (.sloeFail i test) s = .next s) ∧
      (o.due = some test → o.fails < 3 →
        ∃ b, exec (.sloeFail i test) s = .next { s with chip := b } ∧ b.cfg = s.chip.cfg ∧ b.keys = s.chip.keys ∧
          OnlyAt getSloe s.chip b i (discardOctets { o with healthy := false, fails := o.fails + 1, due := none }) ∧
          b.rng.block = [] ∧ (4 < sloesOut b → b.rng.failed = true) ∧
          (sloesOut b ≤ 4 → b.rng.failed = r.failed ∧ b.rng.seeded = r.seeded))) ∧
    (∀ i : Fin 8,
      let o := getSloe s.chip i
      (o.healthy = true ∨ o.fails = 0 ∨ 3 ≤ o.fails ∨ o.due ≠ none ∨ o.passed < 4096 → exec (.sloeRejoin i) s = .next s) ∧
      (o.healthy = false → 0 < o.fails → o.fails < 3 → o.due = none → 4096 ≤ o.passed →
        ∃ b, exec (.sloeRejoin i) s = .next { s with chip := b } ∧
          b = { s.chip with rng := { r with sloes := b.rng.sloes, failed := b.rng.failed } } ∧
          OnlyAt getSloe s.chip b i { o with healthy := true } ∧
          b.rng.failed = (r.failed && (!r.katOk || decide ((healthySloes b).length < 4))))) ∧
    (r.seeded = false ∨ (r.calls < 65536 ∧ nowUs s.chip < r.reseedAt + 1000000) ∨ entropyReady s.chip = false →
      exec .drbgReseed s = .next s) ∧
    (r.seeded = true → 65536 ≤ r.calls ∨ r.reseedAt + 1000000 ≤ nowUs s.chip → entropyReady s.chip = true →
      ∃ b : Chip, exec .drbgReseed s = .next { s with chip := b } ∧ b = { s.chip with rng := b.rng } ∧
        (b.rng.key, b.rng.v) = drbgUpdate r.key r.v (xorBytes (entropyInput s.chip).1 (zeros 48)) ∧ b.rng.calls = 0 ∧
        b.rng.reseedAt = nowUs s.chip ∧ b.rng.seeded = true ∧ b.rng.failed = r.failed ∧ b.rng.blocks = r.blocks.drop 3 ∧
        b.rng.sloes = r.sloes) ∧
    (r.seeded = true ∨ r.failed = true ∨ r.katOk = false ∨ entropyReady s.chip = false → exec .seedingDone s = .next s) ∧
    (r.seeded = false → r.failed = false → r.katOk = true → entropyReady s.chip = true →
      ∃ t, exec .seedingDone s = .next t ∧ t.chip.rng.seeded = true ∧ t.chip.rng.failed = false ∧
        t.chip.rng.meshSeeded = true ∧ t.otp = s.otp ∧ t.chip.ports = s.chip.ports ∧
        (halted s.chip = false → t.chip.keys.ck.isSome = true) ∧
        (r.meshSeeded = false → ∀ o, o < 2 → (getOfficer t.chip o).count = 0))

/-- HANDOVER_BEGIN, HANDOVER_READY and HANDOVER_TIMEOUT (R435, R447, R448): when no command executes the target slot is
copied into the idle bank, and a handover begins if the copy passes its check: the bank takes the handover block, and the
bank in use is closed to writes. Within 50 ms the new image runs from the new bank; at 50 ms the old one goes on, its bank
open again. The ports and the configuration are not touched. The model's choices that it rests on: log entries 6, 108,
167. -/
def Obligations.HandoverRuns : Prop :=
  ∀ (s : State), s.chip.powered = true →
    let fw := s.chip.fw
    let limit := fw.handoverAt + 50000 * usCycles s.chip
    (fw.activate = none ∨ fw.handover = true ∨ s.chip.quince.exec.isSome = true → exec .handoverBegin s = .next s) ∧
    (∀ h slot i, fw.activate = some (h, slot) → fw.handover = false → s.chip.quince.exec = none →
      (checkSlot s slot none = .ok i → ∃ b, exec .handoverBegin s = .next { s with chip := b } ∧
        b = { s.chip with fw := { fw with
          handover := true, handoverAt := s.chip.cycle, bank0 := b.fw.bank0, bank1 := b.fw.bank1 } } ∧
        getBank b.fw (1 - fw.bank) = { loadedBank (loadSlot s slot none) with block := some (handoverBlock s.chip) } ∧
        getBank b.fw fw.bank = { getBank fw fw.bank with closed := true }) ∧
      (∀ e, checkSlot s slot none = .error e → ∃ b, exec .handoverBegin s = .next { s with chip := b } ∧
        b.fw.handover = false ∧ b.fw.activate = none ∧ (imgOf b.fw 1 slot).st = .invalid ∧ b.fw.running = fw.running ∧
        getBank b.fw (1 - fw.bank) = loadedBank (loadSlot s slot none) ∧ getBank b.fw fw.bank = getBank fw fw.bank)) ∧
    (fw.activate = none ∨ fw.handover = false → exec .handoverReady s = .next s) ∧
    (∀ h slot, fw.activate = some (h, slot) → fw.handover = true →
      (limit ≤ s.chip.cycle ∨ blockReadable fw (imgOf fw 1 slot) = false →
        exec .handoverReady s = .next s) ∧
      (s.chip.cycle < limit → blockReadable fw (imgOf fw 1 slot) = true →
        ∃ t, exec .handoverReady s = .next t ∧ t.chip.fw.running = slot ∧ t.chip.fw.handover = false ∧
          t.chip.fw.bank = 1 - fw.bank ∧
          t.chip.ports = s.chip.ports ∧ t.chip.cfg = s.chip.cfg ∧ t.chip.clusters = s.chip.clusters ∧
          t.flash0 = s.flash0 ∧ t.flash1 = s.flash1)) ∧
    (fw.handover = false ∨ s.chip.cycle < limit → exec .handoverTimeout s = .next s) ∧
    (fw.handover = true → limit ≤ s.chip.cycle →
      ∃ t, exec .handoverTimeout s = .next t ∧ t.chip.fw.running = fw.running ∧ t.chip.fw.handover = false ∧
        t.chip.fw.activate = none ∧ (getBank t.chip.fw fw.bank).closed = false ∧ t.chip.fw.bank = fw.bank ∧
        t.chip.ports = s.chip.ports ∧ t.chip.cfg = s.chip.cfg ∧ t.flash0 = s.flash0 ∧ t.flash1 = s.flash1)

/-- PFAIL_ASSERT and PFAIL_DEASSERT (R413, R445, R446): the warning is noted once; the data path is not touched, and
nothing in the flash devices changes in the step itself. POWER_LOSS, AON_SUPPLY_START and AON_SUPPLY_LOSS (R380,
R473, R474): what PWR_OK holds is lost and the always-on domain, the fuses and the contents of idle flash devices
stay; the always-on domain starts with its initial values. The model's choices that it rests on: log entry 7. -/
def Obligations.PowerTurns : Prop :=
  (∀ (s : State), s.chip.powered = true →
     (s.chip.pfail = true → exec .pfailAssert s = .next s) ∧
     (s.chip.pfail = false → ∃ b, exec .pfailAssert s = .next { s with chip := b } ∧ b.pfail = true ∧
       b.ports = s.chip.ports ∧ b.clusters = s.chip.clusters ∧ b.lines = s.chip.lines ∧ b.cfg = s.chip.cfg ∧
       b.dstate = s.chip.dstate) ∧
     (s.chip.pfail = false → exec .pfailDeassert s = .next s) ∧
     (s.chip.pfail = true → ∃ t, exec .pfailDeassert s = .next t ∧ t.chip.pfail = false ∧ t.chip.ports = s.chip.ports ∧
       t.chip.lines = s.chip.lines ∧ t.chip.cfg = s.chip.cfg ∧ t.chip.dstate = s.chip.dstate ∧ t.flash0 = s.flash0 ∧
       t.flash1 = s.flash1)) ∧
  (∀ (s : State),
     (s.chip.powered = false → exec .powerLoss s = .next s) ∧
     (s.chip.powered = true → ∃ t, exec .powerLoss s = .next t ∧ t.chip = { powered := false, free := t.chip.free } ∧
       t.aon = s.aon ∧ t.otp = s.otp ∧ t.pending = s.pending ∧ (s.chip.xspi0.bus = none → t.flash0 = s.flash0) ∧
       (s.chip.xspi1.bus = none → t.flash1 = s.flash1)) ∧
     (s.aon.present = true → exec .aonSupplyStart s = .next s) ∧
     (s.aon.present = false → exec .aonSupplyStart s = .next { s with aon := {} }) ∧
     exec .aonSupplyLoss s = .next { s with aon := { present := false } })

/-- POWER_ON_RESET and BOOT_READY (R389, R442 to R444, R468): the boot samples PFAIL_N and CORE_MUL, enters ZEROIZE
again when a TRIPPED latch is set, and uses the first device secret that is not killed; READY is entered when the
steps before it have run. The model's choices that it rests on: log entries 29, 86. -/
def Obligations.Boots : Prop :=
  ∀ (b : BootInputs) (s : State),
    (∃ t, exec (.powerOnReset b) s = .next t ∧ t.chip.powered = true ∧ t.chip.pfail = b.pfail ∧ t.pending = s.pending ∧
      t.chip.coreMul = (if 16 ≤ b.coreMul.val ∧ b.coreMul.val ≤ 21 then b.coreMul.val else 20) ∧
      t.chip.dstate = (if (trippedSource s).isSome then 3 else 0) ∧
      t.chip.keys.secretGen = secretInUse t.otp ∧
      (s.chip.powered = false → t.flash0 = s.flash0 ∧ t.flash1 = s.flash1)) ∧
    (s.chip.powered = true → readyDue s.chip = false → exec .bootReady s = .next s) ∧
    (s.chip.powered = true → readyDue s.chip = true →
      ∃ t, exec .bootReady s = .next t ∧ t.chip.dstate = 1 ∧ t.flash0 = s.flash0 ∧ t.flash1 = s.flash1 ∧
        (s.chip.fw.rom = false → s.chip.rng.seeded = true → t.chip.keys.ck.isSome = true))

/-- HOST_RESET_ASSERT and HOST_RESET_RELEASE (R55, R250, R475 to R477): while HOST_RST_N is low every port is
disabled and the accesses in flight have ended in errors; at its release queues, contexts, rows, mailbox slots and
staged registers are cleared, while the configuration in force stays. The model's choices that it rests on: log
entries 26, 89. -/
def Obligations.HostResets : Prop :=
  ∀ (s : State), s.chip.powered = true →
    (s.chip.ctl.hostReset = true → exec .hostResetAssert s = .next s) ∧
    (s.chip.ctl.hostReset = false →
      ∃ b, exec .hostResetAssert s = .next { s with chip := b } ∧ b.ctl.hostReset = true ∧ b.ctl.stall = none ∧
        (s.chip.ctl.stall ≠ none → b.ctl.err = true ∧ b.ctl.behind = []) ∧
        (∀ p, (getPort b p).st = .disabled ∧ (getPort b p).pe = {}) ∧ (∀ p, (getLine b p).st = .disabled) ∧
        b.keys = s.chip.keys ∧ b.cfg = s.chip.cfg ∧ b.mbs = s.chip.mbs ∧ b.clusters = s.chip.clusters) ∧
    (s.chip.ctl.hostReset = false → exec .hostResetRelease s = .next s) ∧
    (s.chip.ctl.hostReset = true → s.chip.dstate = 0 → exec .hostResetRelease s = .next { s with chip := { s.chip with
      ctl := { s.chip.ctl with hostReset := false, reachDue := true } } }) ∧
    (s.chip.ctl.hostReset = true → s.chip.dstate ≠ 0 →
      ∃ t, exec .hostResetRelease s = .next t ∧ t.chip.ctl.hostReset = false ∧ t.chip.cfg = s.chip.cfg ∧
        t.chip.dstate = s.chip.dstate ∧ t.flash0 = s.flash0 ∧ t.flash1 = s.flash1 ∧
        t.chip.quince.staged = [] ∧ t.chip.quince.dirty = [] ∧ t.chip.fw.stage = none ∧
        (∀ p, (getPort t.chip p).reqs = [] ∧ (getPort t.chip p).msgs = [] ∧ (getPort t.chip p).cur.rows = []) ∧
        (∀ c, (getCluster t.chip c).fwdIn = [] ∧ (getCluster t.chip c).retIn = [] ∧ (getCluster t.chip c).staging = [] ∧
          (getCluster t.chip c).retry = []) ∧
        (s.chip.fw.handover = false → ∀ mb, (getMb t.chip mb).order = []))

/-- The answer of a command and UNDEFINED_OPCODE (R242, R243, R245, R246): the response goes to the command's slot,
which is DONE; no other slot changes. An opcode that Table 11.8 does not define is answered with ST_BAD_OPCODE at
check 8; a mailbox that is not the next to be served is not touched. The model's choices that it rests on: log entry
27. -/
def Obligations.CommandsAnswered : Prop :=
  (∀ (mb : Fin 1028) (slot : Nat) (s t : State) (r : Reply), r.status < 256 → r.detail < 256 → r.job < 2 ^ 32 →
    let u := answered s mb slot t r
    Responded u mb slot r.status r.detail ∧ respAt u mb slot 8 4 = r.job ∧
      respAt u mb slot 0x10 32 = r.result % 2 ^ 256 ∧ (∀ i, i ≠ slot → slotOf u mb i = slotOf t mb i) ∧
      (∀ m, m ≠ mb.val → (getMb u.chip m).slots = (getMb t.chip m).slots) ∧
      (∀ m, (getMb u.chip m).order = (getMb t.chip m).order) ∧ u.chip.cfg = t.chip.cfg ∧ u.chip.keys = t.chip.keys ∧
      u.chip.ports = t.chip.ports ∧ u.chip.lines = t.chip.lines ∧ u.chip.fw = t.chip.fw ∧ u.otp = t.otp ∧ u.aon = t.aon) ∧
  (∀ (mb : Fin 1028) (s : State), s.chip.powered = true →
    (serving s.chip = false ∨ nextMailbox s.chip ≠ some mb.val → exec (.undefinedOpcode mb) s = .next s) ∧
    (∀ (slot : Nat), (getMb s.chip mb).order.head? = some slot →
      (opInfo (cOpcode (slotOf s mb slot).cmd)).isSome = true → exec (.undefinedOpcode mb) s = .next s) ∧
    (∀ (slot : Nat) (cmd : CommandWord), serving s.chip = true → nextMailbox s.chip = some mb.val →
      (getMb s.chip mb).order.head? = some slot → (slotOf s mb slot).cmd = cmd → opInfo (cOpcode cmd) = none →
      s.chip.fw.rom = false → s.chip.fw.handover = false → halted s.chip = false → (∀ o, officerOf mb = some o → AuthVerifies s o cmd) →
      (mb.val = 1027 → s.otp.locked = false) → cb cmd 4 12 = 0 → (officerOf mb = none → cb cmd 0x70 16 = 0) →
      exec (.undefinedOpcode mb) s =
        .next (answered s mb slot (started s mb slot) { status := stBadOpcode, detail := 8 })))

/-- XN_DEVICE_QUERY, XN_JOB_QUERY, XN_PORT_CTL, XN_PORT_QUERY, XN_DEVICE_ZEROIZE, XN_OFFICER_ZEROIZE and
XN_FACTORY_LOCK (R264 to R269): what each answers and changes when its checks pass. That an ENABLE
which runs under HOST_RST_N changes nothing is the model's choice (log entry 168). The model's choices that it rests on: log
entries 37, 39, 44, 45, 55, 168. -/
def Obligations.DeviceCommands : Prop :=
  ∀ (mb : Fin 1028) (slot : Nat) (cmd : CommandWord) (s : State),
    let T := started s mb slot
    let ch := T.chip
    let p (off n : Nat) : Nat := cb cmd off n
    let done (t : State) (r : Reply) : Out := .next (answered s mb slot t r)
    (Served s mb slot 0x0101 cmd → paramsOk cmd [] = true →
      exec (.xnDeviceQuery mb) s = done T (okWith (rb 0x10 4 (runningRelease ch) ||| rb 0x14 2 T.otp.svn |||
        rb 0x16 1 (secretInUse T.otp) ||| rb 0x17 1 ch.dstate ||| rb 0x18 2 (testedCount ch (sslices ch)) ||| rb 0x1A 2 (testedCount ch (lslices ch)) |||
        rb 0x1C 2 ch.boots ||| rb 0x1E 2 ch.admitGen ||| rb 0x20 8 (nowUs ch) ||| rb 0x28 1 (deviceFlags T)))) ∧
    (Served s mb slot 0x0102 cmd → paramsOk cmd [(0x10, 32)] = true →
      let jobs := (getMb ch mb).jobs
      let h := BitVec.ofNat 32 (p 0x10 4)
      (jobs.find? (fun j => j.handle = h) = none →
        ∃ a, MbNow ch a mb (getMb ch mb) ∧ exec (.xnJobQuery mb) s = done { T with chip := a } (failAt 1 stBadField)) ∧
      (∀ j, jobs.find? (fun j => j.handle = h) = some j → j.result = none →
        ∃ a, MbNow ch a mb (getMb ch mb) ∧
          exec (.xnJobQuery mb) s = done { T with chip := a } { status := stInProgress, job := h.toNat }) ∧
      (∀ j st dt res, jobs.find? (fun j => j.handle = h) = some j → j.result = some (st, dt, res) →
        ∃ a, MbNow ch a mb { getMb ch mb with jobs := jobs.eraseP fun j => j.handle = h } ∧
          exec (.xnJobQuery mb) s = done { T with chip := a }
            { status := st, detail := dt, result := rb 0x10 2 j.opcode ||| rb 0x12 30 res })) ∧
    (∀ kind port action, kind = p 0x10 1 → port = p 0x11 1 → action = p 0x12 1 →
      Served s mb slot 0x0103 cmd → paramsOk cmd [(0x10, 24)] = true → portCtlFail ch kind port action = none →
      ∃ b, exec (.xnPortCtl mb) s = done { T with chip := b } (okWith (rb 0x10 1 kind ||| rb 0x11 1 port |||
          rb 0x12 1 (portCode (portView b kind port).1) ||| rb 0x14 2 (portView b kind port).2.2.1)) ∧ b.cfg = ch.cfg ∧
        (action = 2 → (portView b kind port).1 = .disabled) ∧ (action ≠ 2 → ch.ctl.hostReset = true → b = ch) ∧
        (kind = 0 → action ≠ 2 → ch.ctl.hostReset = false →
          unitOut (liftPortFence ch (srcPort port)) (srcPort port) = false → (getPort b port).st = .enabled ∧
          (getPort b port).credit = Quad.all 0 ∧ (getPort b port).tokens = Int.ofNat (256 * cl0Burst ch.cfg port) ∧
          ∀ c : Fin 4, Quad.get (getPort b port).pools c = fld (getPort ch port).portCredit (9 * c.val) 9) ∧
        (kind = 0 → action ≠ 2 → ch.ctl.hostReset = false →
          unitOut (liftPortFence ch (srcPort port)) (srcPort port) = true →
          (getPort b port).st = .fenced ∧ (getPort b port).cause = 3) ∧
        (kind = 1 → action ≠ 2 → ch.ctl.hostReset = false →
          unitOut (liftPortFence ch (srcLine port)) (srcLine port) = false →
          unitOut (liftPortFence ch (srcLine port)) (srcGroup (groupOf port)) = false →
          (getLine b port).st = .enabled)) ∧
    (∀ kind port, kind = p 0x10 1 → port = p 0x11 1 → Served s mb slot 0x0104 cmd → paramsOk cmd [(0x10, 16)] = true →
      (kind = 0 → port < 64 →
        exec (.xnPortQuery mb) s = done T (okWith (rb 0x11 1 port ||| rb 0x12 1 (portCode (getPort ch port).st) |||
          rb 0x13 1 (getPort ch port).cause ||| rb 0x14 2 (getPort ch port).recs.length |||
          rb 0x16 1 (bitIf (getPort ch port).piClk 0 ||| bitIf (getPort ch port).peClk 1)))) ∧
      (kind = 1 → port < 32 →
        exec (.xnPortQuery mb) s = done T (okWith (rb 0x10 1 1 ||| rb 0x11 1 port |||
          rb 0x12 1 (portCode (getLine ch port).st) ||| rb 0x13 1 (getLine ch port).cause ||| rb 0x14 2 0 |||
          rb 0x16 1 (bitIf (getLine ch port).clk 0))))) ∧
    (∀ i, (i = .xnDeviceZeroize mb ∧ Served s mb slot 0x0105 cmd) ∨ (i = .xnOfficerZeroize mb ∧ Served s mb slot 0x0C07 cmd) →
      paramsOk cmd [(0x10, 8), (0x18, 64)] = true → p 0x18 8 = confirmZeroize → s.chip.ctl.stall = none →
      (p 0x10 1 = 1 → halted s.chip = true → exec i s = done T (okWith (rb 0x10 1 1))) ∧
      (p 0x10 1 = 1 ∧ halted s.chip = false ∧ (getSrc s.chip (srcSub 0x0B)).pendOther = none ∨
        p 0x10 1 = 2 ∧ (getSrc s.chip (srcSub 0x0C)).pendOther = none →
        ∃ t, exec i s = done t (okWith (rb 0x10 1 (p 0x10 1))) ∧ halted t.chip = true ∧
          (halted s.chip = false → t.aon.zeroize = true ∧ t.chip.keys.vk = none ∧ t.chip.keys.ck = none) ∧
          (p 0x10 1 = 2 → t.chip.faults.react = 2 ∧ t.chip.dstate = 3 ∨
            s.chip.faults.react = 2))) ∧
    (Served s mb slot 0x0106 cmd → paramsOk cmd [(0x10, 64)] = true → p 0x10 8 = confirmLock →
      exec (.xnFactoryLock mb false) s = done T (failAt 2 stDenied) ∧
      ∃ t, exec (.xnFactoryLock mb true) s = done t {} ∧ t.otp = { s.otp with locked := true } ∧ t.chip.cfg = ch.cfg ∧
        t.chip.keys = ch.keys ∧ t.chip.ports = ch.ports)

/-- XN_TENANT_ENABLE, XN_TENANT_DISABLE, XN_TENANT_RESET, XN_TENANT_QUERY and XN_TENANT_SET (R226, R227, R270 to
R274): an enable is a new generation; a disable and a reset advance the epoch and start the sweep; a set changes the
parts that SELECT marks and no other. The model's choices that it rests on: log entries 19, 100. -/
def Obligations.TenantCommands : Prop :=
  ∀ (mb : Fin 1028) (slot : Nat) (cmd : CommandWord) (s : State),
    let T := started s mb slot
    let ch := T.chip
    let p (off n : Nat) : Nat := cb cmd off n
    let t := p 0x10 2
    let tn := getTenant ch t
    let done (t : State) (r : Reply) : Out := .next (answered s mb slot t r)
    (Served s mb slot 0x0201 cmd → paramsOk cmd [(0x10, 10)] = true → tn.st = .disabled → ch.live2 = false →
      ∃ a, TenantNow ch a t { tn with st := .enabled } ∧
        exec (.xnTenantEnable mb) s = done { T with chip := { a with
          cfgOld := a.cfg, oldGen := a.admitGen, admitGen := (a.admitGen + 1) % 65536, live2 := true } }
          (okWith (rb 0x10 2 t ||| rb 0x12 1 tn.epoch))) ∧
    (Served s mb slot 0x0202 cmd → paramsOk cmd [(0x10, 10)] = true → disableFail ch mb t = none →
      ∃ b, exec (.xnTenantDisable mb) s = done { T with chip := b }
          { status := stInProgress, job := (nextHandle ch mb).toNat, result := rb 0x10 1 ((tn.epoch + 1) % 256) } ∧
        (getTenant b t).st = .resetting ∧ (getTenant b t).toward = 2 ∧ (getTenant b t).epoch = (tn.epoch + 1) % 256 ∧
        (getTenant b t).job = some (nextHandle ch mb) ∧ b.cfg = ch.cfg ∧
        (∀ j, j ≠ t → (getTenant b j).st = (getTenant ch j).st ∧ (getTenant b j).epoch = (getTenant ch j).epoch)) ∧
    (Served s mb slot 0x0203 cmd → paramsOk cmd [(0x10, 10)] = true → ownTenant mb t = true → resetFail ch t = none →
      ∃ b, exec (.xnTenantReset mb) s = .next (waiting s mb slot { T with chip := b } (.sweep t tn.epoch)) ∧
        (getTenant b t).st = .resetting ∧ (getTenant b t).toward = 1 ∧ (getTenant b t).epoch = (tn.epoch + 1) % 256 ∧
        b.cfg = ch.cfg ∧
        (∀ j, j ≠ t → (getTenant b j).st = (getTenant ch j).st ∧ (getTenant b j).epoch = (getTenant ch j).epoch)) ∧
    (Served s mb slot 0x0204 cmd → paramsOk cmd [(0x10, 10), (0x12, 8)] = true → ownTenant mb t = true →
      (p 0x12 1 = 0 → exec (.xnTenantQuery mb) s = done T (okWith (rb 0x10 2 t ||| rb 0x12 1 (tenantCode tn.st) |||
        rb 0x13 1 tn.epoch ||| rb 0x14 1 (bitIf tn.alarm 0) ||| rb 0x15 1 tn.cause |||
        rb 0x18 4 (ch.ports.foldl (fun n e => n + (e.2.reqs.filter fun q => sbTenant q.sb = t).length) 0) |||
        rb 0x1C 4 (pinsHeld ch t) ||| rb 0x20 2 (rangesOf ch t).length ||| rb 0x22 2 tn.authCount))) ∧
      (p 0x12 1 = 1 → exec (.xnTenantQuery mb) s = done T (okWith (rb 0x10 32 (tenantCfg ch.cfg t).queues.toNat))) ∧
      (p 0x12 1 = 2 → let c := tenantCfg ch.cfg t
        exec (.xnTenantQuery mb) s = done T (okWith (rb 0x10 2 c.holdLimit |||
          rb 0x12 1 (bitIf c.noHold 0 ||| bitIf c.clearDek 1) ||| rb 0x13 1 c.modes ||| rb 0x14 21 c.budgets.toNat |||
          rb 0x2A 1 c.accQuota ||| rb 0x2B 1 c.patQuota ||| rb 0x2C 2 c.rangeQuota ||| rb 0x2E 2 tn.authLimit |||
          rb 0x30 1 (bitIf tn.authFault 0))))) ∧
    (Served s mb slot 0x0205 cmd → paramsOk cmd setFields = true → setCheck1 cmd = true → setCheck2 cmd = true →
      p 0x12 1 % 32 = 0 ∨ ch.live2 = false →
      let on (i : Nat) : Bool := (p 0x12 1).testBit i
      ∃ b, exec (.xnTenantSet mb) s = done { T with chip := b } (okWith (rb 0x10 2 b.admitGen)) ∧
        b.keys = ch.keys ∧ b.ports = ch.ports ∧
        OnlyAt getTenant ch b t { tn with
          authLimit := if on 5 then p 0x56 2 else tn.authLimit
          authFault := if on 5 then decide (p 0x58 1 = 1) else tn.authFault } ∧
        (p 0x12 1 % 32 = 0 → b.cfg = ch.cfg ∧ b.admitGen = ch.admitGen) ∧
        (p 0x12 1 % 32 ≠ 0 → b.admitGen = (ch.admitGen + 1) % 65536 ∧ b.cfgOld = ch.cfg ∧ b.live2 = true ∧
          (∀ j, j ≠ t → tenantCfg b.cfg j = tenantCfg ch.cfg j) ∧ b.cfg.regions = ch.cfg.regions ∧
          let o := tenantCfg ch.cfg t
          tenantCfg b.cfg t = { o with
            queues := if on 0 then BitVec.ofNat 256 (p 0x18 32) else o.queues
            holdLimit := if on 1 then p 0x38 2 else o.holdLimit
            noHold := if on 1 then (p 0x3A 1).testBit 0 else o.noHold
            clearDek := if on 2 then (p 0x3A 1).testBit 1 else o.clearDek
            modes := if on 2 then p 0x3B 1 else o.modes
            budgets := if on 3 then BitVec.ofNat 168 (p 0x3C 21) else o.budgets
            accQuota := if on 4 then p 0x52 1 else o.accQuota
            patQuota := if on 4 then p 0x53 1 else o.patQuota
            rangeQuota := if on 4 then p 0x54 2 else o.rangeQuota }))

/-- XN_KEY_INSTALL, XN_KEY_RETIRE, XN_KEY_QUERY, XN_KEY_PIN and XN_KEY_UNPIN (R116, R119, R125, R275 to R277): an install
makes an EMPTY slot of the quota ACTIVE with its key under CK; a retire leaves no ACTIVE slot; pins are taken and
given back, but not of a slot that is found lost; no other slot changes. The model's choices that it rests on: log entries 56, 95. -/
def Obligations.KeySlotCommands : Prop :=
  ∀ (mb : Fin 1028) (slot : Nat) (cmd : CommandWord) (s : State),
    let T := started s mb slot
    let ch := T.chip
    let p (off n : Nat) : Nat := cb cmd off n
    let k := p 0x10 4
    let d := slotDesc ch k
    let echo := rb 0x10 4 k ||| rb 0x14 1 (p 0x14 1)
    let done (t : State) (r : Reply) : Out := .next (answered s mb slot t r)
    let pins (c : Chip) : Nat := rb 0x18 4 (pinsHeld c mb) ||| rb 0x1C 4 (tenantCfg c.cfg mb).pinQuota
    let two : List (Nat × Nat) := [(0x10, 20), (0x14, 8)]
    (∀ a ck, Served s mb slot 0x0301 cmd →
      paramsOk cmd [(0x10, 20), (0x14, 8), (0x15, 8), (0x16, 16), (0x18, 24), (0x1C, 24), (0x20, 128)] = true →
      ch.keys.ck = some ck → ch.keys.secretGen < 4 → inSlotQuota (tenantCfg ch.cfg mb) k = true → dState d = ssEmpty →
      (p 0x14 1 = 0 ∧ p 0x15 1 < 16 ∧ attrFromBlob ch mb (callOf s mb slot) = .ok a ∨
        p 0x14 1 = 1 ∧ attrFromClear ch mb (callOf s mb slot) = .ok a) →
      attrFail (tenantCfg ch.cfg mb) a = none →
      ∃ b, exec (.xnKeyInstall mb) s = done { T with chip := b } (okWith (rb 0x10 4 k ||| rb 0x14 1 (dKgen d) |||
          rb 0x15 3 (kcvNum a.key) ||| rb 0x18 1 a.mode)) ∧
        dState (slotDesc b k) = ssActive ∧ dTenant (slotDesc b k) = mb.val ∧ dKgen (slotDesc b k) = dKgen d ∧
        dMode (slotDesc b k) = a.mode ∧ Tbl.get [] b.keys.cache k = underCk ck k a.key ∧
        (∀ j, j ≠ k → slotDesc b j = slotDesc ch j) ∧
        b = { ch with keys := { ch.keys with
          desc := b.keys.desc, descInv := (setDesc ch k (slotDesc b k)).keys.descInv, cache := b.keys.cache, codes := b.keys.codes } }) ∧
    (Served s mb slot 0x0302 cmd → paramsOk cmd two = true → inSlotQuota (tenantCfg ch.cfg mb) k = true →
      dState d = ssActive → dKgen d = p 0x14 1 → rangeNames ch k = false →
      ∃ b, exec (.xnKeyRetire mb) s = done { T with chip := b } (okWith (echo ||| rb 0x18 4 (inflightOf ch k))) ∧
        (dState (slotDesc b k) = if inflightOf ch k = 0 then ssClearing else ssRetiring) ∧
        (∀ j, j ≠ k → slotDesc b j = slotDesc ch j) ∧ b.cfg = ch.cfg) ∧
    (Served s mb slot 0x0303 cmd → paramsOk cmd [(0x10, 20)] = true →
      (inSlotQuota (tenantCfg ch.cfg mb) k = false → exec (.xnKeyQuery mb) s = done T (failAt 1 stKeyOwner)) ∧
      (inSlotQuota (tenantCfg ch.cfg mb) k = true → exec (.xnKeyQuery mb) s = done T (okWith (rb 0x10 32 d.toNat |||
        rb 0x30 3 (slotKcv ch k) ||| rb 0x34 4 (inflightOf ch k))))) ∧
    (∀ e ck, Served s mb slot 0x0304 cmd → paramsOk cmd two = true → ch.keys.ck = some ck →
      inSlotQuota (tenantCfg ch.cfg mb) k = true → dState d = ssActive → dKgen d = p 0x14 1 →
      ∀ bad : List (Fin 80), let read := scrubSlot ch k bad
      (bad = [] → read = ch) ∧
      (dPinned d = true → exec (.xnKeyPin mb bad) s = done T (okWith (echo ||| pins ch))) ∧
      (dPinned d = false → freePin ch = none ∨ (tenantCfg ch.cfg mb).pinQuota ≤ pinsHeld ch mb →
        exec (.xnKeyPin mb bad) s = done T { failAt 5 stNoResource with result := echo }) ∧
      (dPinned d = false → freePin ch = some e → pinsHeld ch mb < (tenantCfg ch.cfg mb).pinQuota →
        (dState (slotDesc read k) ≠ ssActive →
          exec (.xnKeyPin mb bad) s = done { T with chip := read } { failAt 4 stKeyRetiring with result := echo }) ∧
        (dState (slotDesc read k) = ssActive →
          ∃ b, exec (.xnKeyPin mb bad) s = done { T with chip := b } (okWith (echo ||| pins b)) ∧
            slotDesc b k = setFld d 94 1 1 ∧ (∀ j, j ≠ k → slotDesc b j = slotDesc ch j) ∧
            Tbl.get none b.keys.pins e = some (k, underCk ck (2 ^ 32 + e) (slotKey ch k), (getTenant ch mb).epoch) ∧
            b.cfg = ch.cfg))) ∧
    (Served s mb slot 0x0305 cmd → paramsOk cmd two = true → inSlotQuota (tenantCfg ch.cfg mb) k = true →
      dState d ≠ ssEmpty → dKgen d = p 0x14 1 →
      ∃ b, exec (.xnKeyUnpin mb) s = done { T with chip := b } (okWith (echo ||| pins b)) ∧ dPinned (slotDesc b k) = false ∧
        dState (slotDesc b k) = dState d ∧ (∀ j, j ≠ k → slotDesc b j = slotDesc ch j) ∧ b.cfg = ch.cfg)

/-- XN_KEK_LOAD, XN_KEK_QUERY, XN_KEK_ERASE, XN_KEY_QUOTA, XN_LEASE_QUERY and XN_LOCAL_SLOT_SET (R278 to R285): a
load and an erase wait for their vault record and change no KEK before it; a quota is a new generation; a slot change
waits for its reservation. The source of a loaded KEK is noted with its record (R459). The model's choices that it rests
on: log entries 23, 24, 97, 99. -/
def Obligations.CustodyCommands : Prop :=
  ∀ (mb : Fin 1028) (slot : Nat) (cmd : CommandWord) (s : State),
    let T := started s mb slot
    let ch := T.chip
    let p (off n : Nat) : Nat := cb cmd off n
    let done (t : State) (r : Reply) : Out := .next (answered s mb slot t r)
    let waits (t : State) (w : Wait) : Out := .next (waiting s mb slot t w)
    (∀ pos epoch pt ck, Served s mb slot 0x0306 cmd → paramsOk cmd [(0x10, 8), (0x12, 16)] = true → ch.keys.ck = some ck →
      kekLoadFail ch mb (p 0x10 1) (callOf s mb slot) = none →
      gtkUnwrap ch (blobBytes (callOf s mb slot).blob 56) = some (pos, epoch, pt) →
      pt.take 16 = attrBlock mb (p 0x10 1) 0 magicDkk1 → vaultRefusal ch = none →
      let idx := 16 * mb.val + p 0x10 1
      ∃ b, exec (.xnKekLoad mb) s = waits (noteSource { T with chip := b } idx 2) (.kekLoad idx 2 (memRecord ck (pt.drop 16))
          (rb 0x10 1 (p 0x10 1) ||| rb 0x11 1 pos ||| rb 0x14 4 epoch ||| rb 0x18 3 (kcvNum (pt.drop 16)))) ∧
        b.keys = ch.keys ∧ b.cfg = ch.cfg ∧ b.fw.vaultQ.length = ch.fw.vaultQ.length + 1) ∧
    (Served s mb slot 0x0307 cmd → paramsOk cmd [(0x10, 8), (0x11, 8), (0x12, 16)] = true →
      1024 ≤ mb.val ∨ (p 0x10 1 = 0 ∧ p 0x12 2 = mb.val) →
      (p 0x10 1 = 0 → p 0x11 1 < 16 → p 0x12 2 < 1024 →
        exec (.xnKekQuery mb) s = done T (okWith (kekView ch (16 * p 0x12 2 + p 0x11 1)))) ∧
      (p 0x10 1 = 1 → p 0x11 1 = 0 → p 0x12 2 = 0 → exec (.xnKekQuery mb) s = done T (okWith (gtkView ch ch.keys.gtkCur))) ∧
      (p 0x10 1 = 2 → p 0x11 1 = 0 → p 0x12 2 = 0 →
        exec (.xnKekQuery mb) s = done T (okWith (gtkView ch ch.keys.gtkPrev)))) ∧
    (Served s mb slot 0x0308 cmd → paramsOk cmd [(0x10, 8), (0x12, 10)] = true → ownTenant mb (p 0x12 2) = true →
      p 0x10 1 < 16 → kekReserved ch (16 * p 0x12 2 + p 0x10 1) = false →
      kekActive ch (16 * p 0x12 2 + p 0x10 1) = true → vaultRefusal ch = none →
      ∃ b, exec (.xnKekErase mb) s = waits { T with chip := b } (.kekErase (16 * p 0x12 2 + p 0x10 1)
          (rb 0x10 1 (p 0x10 1) ||| rb 0x12 2 (p 0x12 2))) ∧
        b.keys = ch.keys ∧ b.cfg = ch.cfg ∧ b.fw.vaultQ.length = ch.fw.vaultQ.length + 1) ∧
    (Served s mb slot 0x0309 cmd → paramsOk cmd quotaFields = true → ownTenant mb (p 0x10 2) = true →
      (quotaQuery cmd = true → p 0x10 2 < 1024 →
        exec (.xnKeyQuota mb) s = done T (okWith (quotaView ch (p 0x10 2)))) ∧
      (1024 ≤ mb.val → quotaQuery cmd = false → quotaFail ch cmd = none → ch.live2 = false →
        ∃ b, exec (.xnKeyQuota mb) s = done { T with chip := b } (okWith (quotaView b (p 0x10 2))) ∧
          b.admitGen = (ch.admitGen + 1) % 65536 ∧ b.cfgOld = ch.cfg ∧ b.keys = ch.keys ∧
          (∀ j, j ≠ p 0x10 2 → tenantCfg b.cfg j = tenantCfg ch.cfg j) ∧
          let o := tenantCfg ch.cfg (p 0x10 2)
          let on (i : Nat) : Bool := (p 0x12 1).testBit i
          tenantCfg b.cfg (p 0x10 2) = { o with
            slotBase := if on 0 then p 0x18 4 else o.slotBase
            slotSize := if on 0 then p 0x1C 4 else o.slotSize
            lkeyBase := if on 1 then p 0x20 2 else o.lkeyBase
            lkeySize := if on 1 then p 0x22 2 else o.lkeySize
            pinQuota := if on 2 then p 0x24 4 else o.pinQuota })) ∧
    (Served s mb slot 0x0401 cmd → paramsOk cmd [] = true →
      exec (.xnLeaseQuery mb) s = done T (okWith (leaseResult T))) ∧
    (Served s mb slot 0x0402 cmd → paramsOk cmd [(0x10, 16)] = true → localSlotFail ch mb (p 0x10 2) = none →
      (p 0x10 2 = ch.damson.slot → exec (.xnLocalSlotSet mb) s = done T {}) ∧
      (p 0x10 2 ≠ ch.damson.slot →
        ∃ t, exec (.xnLocalSlotSet mb) s = waits t (.slotChange (nowUs ch + 5000) false) ∧
          t.chip.damson.localSlot = p 0x10 2 ∧ t.chip.cfg = ch.cfg ∧ t.chip.keys = ch.keys ∧ t.flash0 = s.flash0))

/-- XN_DUAL_OPEN, XN_SHARE_COMMIT, XN_DUAL_CANCEL, XN_OFFICER_ENROL and XN_ENROL_ALLOW (R128 to R130, R286 to R291):
one session is open at a time; the first commit stores the share, the second takes both and writes a vault record, or
ends the session if Z is zero, starts the log clear, or blows the fuse; an enrolment waits for its record. The source of a
KEK that shares form is noted with its record (R459). The model's choices that it rests on: log entries 24, 25, 96. -/
def Obligations.OfficerCommands : Prop :=
  ∀ (mb : Fin 1028) (slot : Nat) (cmd : CommandWord) (s : State),
    let T := started s mb slot
    let ch := T.chip
    let n := ch.keys.session
    let o := (officerOf mb).getD 0
    let p (off n : Nat) : Nat := cb cmd off n
    let done (t : State) (r : Reply) : Out := .next (answered s mb slot t r)
    let waits (t : State) (w : Wait) : Out := .next (waiting s mb slot t w)
    (Served s mb slot 0x0C01 cmd → paramsOk cmd [(0x10, 8), (0x12, 24), (0x18, 48)] = true →
      openFail T cmd = none →
      let num := if n.num + 1 = 65536 then 1 else n.num + 1
      let expiry := nowUs ch + 60000000 * ch.fw.dualWindow
      ∃ b, exec (.xnDualOpen mb) s = done { T with chip := b }
          (okWith (rb 0x10 2 num ||| rb 0x12 1 (p 0x10 1) ||| rb 0x18 8 expiry)) ∧ b.cfg = ch.cfg ∧
        b.keys = { ch.keys with session := { num := num, purpose := p 0x10 1, tenant := p 0x12 2, kekslot := p 0x14 1
                                             epoch := p 0x18 4, source := p 0x1C 2, expiry := expiry, state := 1 } }) ∧
    (Served s mb slot 0x0C02 cmd → paramsOk cmd [(0x10, 16)] = true → commitFail ch mb o cmd = none →
      let share := if sharePurpose n then shareOf ch mb else []
      let key := deriveRootKey (xorBytes n.share (shareOf ch mb)) n.purpose n.tenant n.kekslot n.epoch
      let record := memRecord (ch.keys.ck.getD []) key
      let commits := exec (.xnShareCommit mb true) s
      (n.state = 1 → ∃ b, commits = done { T with chip := b } (okWith (commitResult n 1 share [])) ∧ b.cfg = ch.cfg ∧
        b.keys.session = { n with state := 2 + o, share := share } ∧ (sharePurpose n = true → (getMb b mb).keyData = [])) ∧
      (n.state ≠ 1 → n.purpose = 1 ∨ n.purpose = 2 → (xorBytes n.share (shareOf ch mb)).all (· = 0) = false →
        vaultRefusal ch = none →
        ∃ b, commits = waits
            (if n.purpose = 1 then noteSource { T with chip := b } (16 * n.tenant + n.kekslot) 1 else { T with chip := b })
            (if n.purpose = 1 then .dualKek (16 * n.tenant + n.kekslot) record (commitResult n 2 (shareOf ch mb) key) (kcv key)
            else .dualGtk true n.epoch (dgkBlob (ch.keys.tk.getD []) n.epoch key) record
              (commitResult n 2 (shareOf ch mb) key) (kcv key)) ∧
          b.fw.vaultQ.length = ch.fw.vaultQ.length + 1 ∧ (getMb b mb).keyData = [] ∧ b.keys.session.share = [] ∧
          b.cfg = ch.cfg) ∧
      (n.state ≠ 1 → n.purpose = 1 ∨ n.purpose = 2 → (xorBytes n.share (shareOf ch mb)).all (· = 0) = true →
        ∃ b, commits = done { T with chip := b } (failAt 6 stBadField) ∧ b.keys.session.state = 5 ∧
          b.keys.session.cause = 4 ∧ b.keys.session.share = [] ∧ (getMb b mb).keyData = [] ∧ b.cfg = ch.cfg) ∧
      (n.state ≠ 1 → n.purpose = 3 → jobFree ch mb = true →
        ∃ t job, commits = done t { status := stInProgress, job := job, result := commitResult n 2 [] [] } ∧
          t.chip.keys.session.state = 4 ∧ t.chip.recorder.clearing.isSome = true ∧ t.chip.fw.clearJob.isSome = true ∧
          t.flash0 = s.flash0) ∧
      (n.state ≠ 1 → n.purpose = 4 →
        ∃ t, commits = done t (okWith (commitResult n 2 [] [])) ∧ t.chip.keys.session.state = 4 ∧
          t.otp.disabled = s.otp.disabled ||| (1#64 <<< (srcRind n.source).getD 0)) ∧
      (n.state ≠ 1 → n.purpose = 4 → ∃ b, exec (.xnShareCommit mb false) s =
        done { T with chip := b } { status := stDenied, detail := 0x88 } ∧ b.keys.session.state = 5 ∧ b.cfg = ch.cfg)) ∧
    (Served s mb slot 0x0C03 cmd → paramsOk cmd [(0x10, 16)] = true → sessionOpen n = true → n.num = p 0x10 2 →
      ∃ b, exec (.xnDualCancel mb) s = done { T with chip := b } (okWith (rb 0x10 2 n.num)) ∧
        b.keys.session = { n with share := [], state := 5, cause := 2 + o } ∧ b.cfg = ch.cfg) ∧
    (Served s mb slot 0x0C05 cmd → paramsOk cmd [(0x10, 128)] = true → sessionOpen n = false →
      enrolWords ch mb o cmd = true → enrolFail ch o (callOf s mb slot) (keyDataBytes (getMb ch mb) 4) = none →
      vaultRefusal ch = none →
      let key := keyDataBytes (getMb ch mb) 4
      ∃ b, exec (.xnOfficerEnrol mb) s = waits { T with chip := b } (.enrol o (rb 0x10 3 (kcvNum key) ||| rb 0x13 1 o)) ∧
        (getMb b mb).newKey = key ∧ b.keys = ch.keys ∧ b.fw.vaultQ.length = ch.fw.vaultQ.length + 1 ∧ b.cfg = ch.cfg) ∧
    (Served s mb slot 0x0C06 cmd → paramsOk cmd [(0x10, 8)] = true → p 0x10 1 < 2 →
      (getOfficer ch (p 0x10 1)).enrolled = false →
      let e := nowUs ch + 60000000 * ch.fw.dualWindow
      ∃ b, exec (.xnEnrolAllow mb) s = done { T with chip := b } (okWith (rb 0x10 1 (p 0x10 1) ||| rb 0x18 8 e)) ∧
        getOfficer b (p 0x10 1) = { getOfficer ch (p 0x10 1) with allowUntil := some e } ∧
        b = { ch with keys := { ch.keys with offA := b.keys.offA, offB := b.keys.offB } })

/-- XN_REGION_SET, XN_REGION_CLEAR, XN_REGION_QUERY, XN_SWEEP_CTL, XN_LKEY_INSTALL, XN_LKEY_RETIRE and XN_LKEY_QUERY
(R178, R182, R293 to R299): a new region is one generation, sweeps from its first line and binds its key; a clear
unbinds it; entries other than the one named keep their descriptor. The model's choices that it rests on: log entries
61, 74, 104. -/
def Obligations.RegionCommands : Prop :=
  ∀ (mb : Fin 1028) (slot : Nat) (cmd : CommandWord) (s : State),
    let T := started s mb slot
    let ch := T.chip
    let p (off n : Nat) : Nat := cb cmd off n
    let r := p 0x10 2
    let reg := regionOf ch.cfg r
    let job (c : Chip) : Nat := match regionJob c r with | some (_, j) => j.rb | none => 0
    let done (t : State) (r : Reply) : Out := .next (answered s mb slot t r)
    (Served s mb slot 0x0501 cmd → paramsOk cmd
        [(0x10, 16), (0x12, 8), (0x13, 8), (0x14, 16), (0x16, 16), (0x18, 40), (0x20, 40), (0x28, 16), (0x2A, 16)] = true →
      regionFieldsOk cmd = true → regionSetFail ch cmd = none →
      ∃ b, exec (.xnRegionSet mb) s = done { T with chip := b }
          (okWith (rb 0x10 2 r ||| rb 0x12 1 (getSweep b r).state ||| rb 0x14 2 b.admitGen)) ∧
        b.admitGen = (ch.admitGen + 1) % 65536 ∧ b.live2 = true ∧ b.cfgOld = ch.cfg ∧
        (∀ j, j ≠ r → regionOf b.cfg j = regionOf ch.cfg j) ∧
        let new := regionOf b.cfg r
        rgAval new = p 0x28 2 ∧ rgAmask new = p 0x2A 2 ∧ (rgKeep new = true ↔ p 0x13 1 = 1) ∧
        (rgKind reg = 0 → rgKind new = 1 ∧ rgBase new = p 0x18 5 ∧ rgLimit new = p 0x20 5 ∧ rgTenant new = p 0x14 2 ∧
          rgCkey new = p 0x16 2 ∧ getSweep b r = { bound := p 0x18 5 * 64, state := 1 } ∧
          ldBound (lineDesc b (p 0x16 2)) = true ∧ (∀ e, e ≠ p 0x16 2 → lineDesc b e = lineDesc ch e)) ∧
        (rgKind reg ≠ 0 → rgBase new = rgBase reg ∧ rgLimit new = rgLimit reg ∧ rgCkey new = rgCkey reg ∧
          b.sweeps = ch.sweeps ∧ b.keys = { ch.keys with lregs := b.keys.lregs })) ∧
    (Served s mb slot 0x0502 cmd → paramsOk cmd [(0x10, 16)] = true → r < 4096 → rgKind reg ≠ 2 → rgRekey reg = false →
      ch.live2 = false →
      (rgKind reg = 0 → exec (.xnRegionClear mb) s = done T {}) ∧
      (rgKind reg ≠ 0 → ∃ b, exec (.xnRegionClear mb) s = done { T with chip := b } {} ∧ regionOf b.cfg r = 0 ∧
        (∀ j, j ≠ r → regionOf b.cfg j = regionOf ch.cfg j) ∧ getSweep b r = {} ∧
        lineDesc b (rgCkey reg) = setFld (lineDesc ch (rgCkey reg)) 102 1 0 ∧
        (∀ e, e ≠ rgCkey reg → lineDesc b e = lineDesc ch e) ∧ b.admitGen = (ch.admitGen + 1) % 65536)) ∧
    (Served s mb slot 0x0503 cmd → paramsOk cmd [(0x10, 12)] = true →
      1024 ≤ mb.val ∨ rgKind reg = 0 ∨ (rgKind reg = 1 ∧ rgTenant reg = mb.val) →
      exec (.xnRegionQuery mb) s = done T (okWith (rb 0x10 32 (if rgKind reg = 0 then 0 else
        reg.toNat ||| field 130 46 (getSweep ch r).bound ||| field 66 2 (getSweep ch r).state) ||| rb 0x30 6 (job ch)))) ∧
    (Served s mb slot 0x0504 cmd → paramsOk cmd [(0x10, 16), (0x12, 8)] = true → r < 4096 → rgKind reg ≠ 0 →
      p 0x12 1 = 1 ∨ (p 0x12 1 = 2 ∧ mapPortsOpen ch = true) → (getSweep ch r).state = p 0x12 1 →
      ∃ b, SweepNow ch b r { getSweep ch r with state := 3 - p 0x12 1, byPort := [] } ∧
        exec (.xnSweepCtl mb) s = done { T with chip := b } {}) ∧
    (let e := p 0x12 2
     ∀ pt ck, Served s mb slot 0x0505 cmd → paramsOk cmd [(0x10, 10), (0x12, 12), (0x14, 4), (0x16, 16)] = true →
      ch.keys.ck = some ck → lkeyFail ch r e (callOf s mb slot) = none →
      unwrapKek ch (16 * r + p 0x14 1) (blobBytes (callOf s mb slot).blob (p 0x16 2)) = some pt →
      let a := blobAttr pt r (p 0x14 1)
      lattrFail (tenantCfg ch.cfg r) a = none →
      ∃ b, exec (.xnLkeyInstall mb) s = done { T with chip := b } (okWith (rb 0x10 2 e |||
          rb 0x12 1 (ldLgen (lineDesc ch e)) ||| rb 0x13 3 (kcvNum a.key) ||| rb 0x16 1 a.mode)) ∧
        ldState (lineDesc b e) = ssActive ∧ ldTenant (lineDesc b e) = r ∧ ldMode (lineDesc b e) = a.mode ∧
        ldLgen (lineDesc b e) = ldLgen (lineDesc ch e) ∧
        (∀ g, g < 8 → Tbl.get [] b.keys.lstore (storeAt g e) = underCk ck (2 ^ 33 + storeAt g e) a.key) ∧
        (∀ j, j ≠ e → lineDesc b j = lineDesc ch j) ∧
        b = { ch with keys := { ch.keys with
          ldesc := b.keys.ldesc, ldescInv := (setLineDesc ch e (lineDesc b e)).keys.ldescInv, lstore := b.keys.lstore,
          lcodes := b.keys.lcodes, lregs := b.keys.lregs } }) ∧
    (let e := p 0x12 2
     Served s mb slot 0x0506 cmd → paramsOk cmd [(0x10, 10), (0x12, 12), (0x14, 8)] = true →
      lkeyRetireFail ch r e (p 0x14 1) = none →
      ∃ b, exec (.xnLkeyRetire mb) s = done { T with chip := b } {} ∧
        ldState (lineDesc b e) = (if lineInflight ch e = 0 then ssClearing else ssRetiring) ∧
        (∀ j, j ≠ e → lineDesc b j = lineDesc ch j) ∧ b.cfg = ch.cfg) ∧
    (let e := p 0x12 2
     Served s mb slot 0x0507 cmd → paramsOk cmd [(0x10, 10), (0x12, 12)] = true → ownTenant mb r = true →
      inLineQuota (tenantCfg ch.cfg r) e = true →
      exec (.xnLkeyQuery mb) s = done T (okWith (rb 0x10 16 (lineDesc ch e).toNat ||| rb 0x20 3 (entryKcv ch e) |||
        rb 0x24 2 ((binder ch e).getD 0xFFFF))))

/-- XN_RANGE_ARM, XN_RANGE_START, XN_RANGE_PAUSE, XN_RANGE_RESUME, XN_RANGE_ABORT, XN_RANGE_QUERY and XN_REGION_REKEY
(R203, R204, R212, R217, R300 to R302): what each makes of the range or line job that it names, by Table 13.5; no
other range changes. The model's choices that it rests on: log entries 101, 102, 103. -/
def Obligations.RangeCommands : Prop :=
  ∀ (mb : Fin 1028) (slot : Nat) (cmd : CommandWord) (s : State),
    let T := started s mb slot
    let ch := T.chip
    let p (off n : Nat) : Nat := cb cmd off n
    let done (t : State) (r : Reply) : Out := .next (answered s mb slot t r)
    let one : List (Nat × Nat) := [(0x10, 16)]
    (Served s mb slot 0x0601 cmd → paramsOk cmd [(0x10, 20), (0x14, 8), (0x18, 20), (0x1C, 8), (0x20, 64), (0x28, 64)] = true →
      armFail ch mb cmd = none →
      ∃ b, RangeNow ch b (freeRange ch) (some { tenant := mb, epoch := (getTenant ch mb).epoch, o := p 0x10 4, ogen := p 0x14 1
                                                n := p 0x18 4, ngen := p 0x1C 1, lo := p 0x20 8, hi := p 0x28 8, b := p 0x20 8
                                                st := .armed, fseq := 0, win := none, pausing := false }) ∧
        exec (.xnRangeArm mb) s = done { T with chip := b } (okWith (rb 0x10 2 (freeRange ch) ||| rb 0x12 1 1))) ∧
    (∀ j r, ownRange ch mb cmd = some (j, r) →
      (Served s mb slot 0x0602 cmd → paramsOk cmd one = true →
        (r.st = .armed → rangeStale ch r = false →
          ∃ b, exec (.xnRangeStart mb) s = done { T with chip := b } {} ∧
            OnlyAt getRange ch b j (some { r with st := .opened, b := r.lo }) ∧ b.keys = ch.keys ∧ b.cfg = ch.cfg) ∧
        (r.st = .armed → rangeStale ch r = true → exec (.xnRangeStart mb) s = done T (failAt 3 stKeyStale)) ∧
        (r.st = .opened ∨ r.st = .window → exec (.xnRangeStart mb) s = done T {}) ∧
        (r.st = .paused ∨ r.st = .stopped ∨ r.st = .frozen ∨ r.st = .done →
          exec (.xnRangeStart mb) s = done T (failAt 2 stDenied))) ∧
      (Served s mb slot 0x0603 cmd → paramsOk cmd one = true →
        (r.st = .opened → ∃ b, RangeNow ch b j (some { r with st := .paused }) ∧
          exec (.xnRangePause mb) s = done { T with chip := b } {}) ∧
        (r.st = .window → ∃ b, RangeNow ch b j (some { r with pausing := true }) ∧
          exec (.xnRangePause mb) s = done { T with chip := b } {}) ∧
        (r.st = .paused ∨ r.st = .stopped → exec (.xnRangePause mb) s = done T {}) ∧
        (r.st = .armed ∨ r.st = .frozen ∨ r.st = .done → exec (.xnRangePause mb) s = done T (failAt 2 stDenied))) ∧
      (Served s mb slot 0x0604 cmd → paramsOk cmd one = true →
        (r.st = .window → ∃ b, RangeNow ch b j (some { r with pausing := false }) ∧
          exec (.xnRangeResume mb) s = done { T with chip := b } {}) ∧
        (r.st = .paused ∨ r.st = .stopped ∨ r.st = .frozen → r.b ≤ r.hi →
          ∃ b, RangeNow ch b j (some { r with st := .opened }) ∧ exec (.xnRangeResume mb) s = done { T with chip := b } {}) ∧
        (r.st = .paused ∨ r.st = .stopped ∨ r.st = .frozen → r.hi < r.b →
          ∃ b, exec (.xnRangeResume mb) s = done { T with chip := b } {} ∧ dState (slotDesc b r.o) ≠ ssActive) ∧
        (r.st = .armed ∨ r.st = .opened ∨ r.st = .done → exec (.xnRangeResume mb) s = done T (failAt 2 stDenied))) ∧
      (Served s mb slot 0x0605 cmd → paramsOk cmd [(0x10, 16), (0x12, 1)] = true →
        (r.st = .armed → ∃ b, RangeNow ch b j none ∧ exec (.xnRangeAbort mb) s = done { T with chip := b } {}) ∧
        (r.st ≠ .armed → r.st ≠ .frozen → r.st ≠ .done →
          ∃ b, exec (.xnRangeAbort mb) s = done { T with chip := b } {} ∧ b.keys = ch.keys ∧
            OnlyAt getRange ch b j (some { r with
              st := .frozen, win := none, pausing := false
              b := match r.win with
                | some w => if (p 0x12 1).testBit 0 = true ∧ w.outDone = true then w.e else r.b
                | none => r.b }) ∧ ∀ x ∈ b.fetchQ, x.1 ≠ j) ∧
        (r.st = .frozen ∨ r.st = .done → exec (.xnRangeAbort mb) s = done T (failAt 2 stDenied))) ∧
      (Served s mb slot 0x0606 cmd → paramsOk cmd one = true →
        exec (.xnRangeQuery mb) s = done T (okWith (rb 0x10 2 j ||| rb 0x12 1 (rangeCode r.st) |||
          rb 0x13 1 (bitIf r.pausing 0 ||| bitIf (match r.win with | some w => w.outDone | none => false) 1) |||
          rb 0x14 3 r.o ||| rb 0x17 1 r.ogen ||| rb 0x18 3 r.n ||| rb 0x1B 1 r.ngen ||| rb 0x20 8 r.b ||| rb 0x28 8 r.hi |||
          rb 0x30 2 (rangeFseq r) ||| rb 0x38 8 r.lo)))) ∧
    (let r := p 0x10 2
     let reg := regionOf ch.cfg r
     Served s mb slot 0x0607 cmd → paramsOk cmd [(0x10, 16), (0x12, 8), (0x13, 8), (0x14, 12)] = true →
      rekeyFieldsOk ch cmd = true →
      (p 0x12 1 = 1 → rekeyStartFail ch r (p 0x13 1) (p 0x14 2) = none →
        ∃ b, exec (.xnRegionRekey mb) s = done { T with chip := b } (okWith (rekeyResult b r)) ∧
          rgRekey (regionOf b.cfg r) = true ∧ rgCkey (regionOf b.cfg r) = rgCkey reg ∧
          (p 0x13 1 = 0 → rgNkey (regionOf b.cfg r) = p 0x14 2 ∧ ldBound (lineDesc b (p 0x14 2)) = true) ∧
          (∀ j, j ≠ r → regionOf b.cfg j = regionOf ch.cfg j) ∧ b.admitGen = (ch.admitGen + 1) % 65536) ∧
      (∀ n j, p 0x12 1 ≠ 1 → regionJob ch r = some (n, j) → rekeyCtlFail ch r (p 0x12 1) = none →
        ∃ b, exec (.xnRegionRekey mb) s = done { T with chip := b } (okWith (rekeyResult b r)) ∧
          (p 0x12 1 = 2 → b.cfg = ch.cfg ∧ getLjob b n = some { j with
            paused := true, win := if j.win = 1 then 0 else j.win, re := if j.win = 1 then j.rb else j.re }) ∧
          (p 0x12 1 = 3 → b.cfg = ch.cfg ∧ ∃ j', getLjob b n = some j' ∧ j'.paused = false ∧ j'.rb = j.rb ∧
            j'.region = j.region) ∧
          (p 0x12 1 = 4 → getLjob b n = none ∧ rgRekey (regionOf b.cfg r) = false ∧
            rgCkey (regionOf b.cfg r) = rgCkey reg ∧ ldBound (lineDesc b (rgNkey reg)) = false ∧
            (∀ i, i ≠ r → regionOf b.cfg i = regionOf ch.cfg i) ∧ b.admitGen = (ch.admitGen + 1) % 65536)))

/-- XN_PATTERN_LOAD, XN_PATTERN_CLEAR and XN_PATTERN_QUERY (R166, R167, R304, R365): an entry is written with its
header, its coefficients and their check column; no other entry changes, and a query changes nothing. -/
def Obligations.PatternCommands : Prop :=
  ∀ (mb : Fin 1028) (slot : Nat) (cmd : CommandWord) (s : State),
    let T := started s mb slot
    let ch := T.chip
    let p (off n : Nat) : Nat := cb cmd off n
    let done (t : State) (r : Reply) : Out := .next (answered s mb slot t r)
    let port := p 0x12 1
    let entry := p 0x13 1
    let three : List (Nat × Nat) := [(0x10, 16), (0x12, 8), (0x13, 8)]
    (Served s mb slot 0x0704 cmd → paramsOk cmd [(0x10, 16), (0x12, 8), (0x13, 8), (0x14, 8), (0x18, 32)] = true →
      patternDenied ch mb cmd = false → patternLoadFail ch cmd = none →
      let k := profK ch.cfg (p 0x14 1)
      let m := profM ch.cfg (p 0x14 1)
      let rows := patternCoefs k m (p 0x18 4)
      ∃ b, exec (.xnPatternLoad mb) s = done { T with chip := b } (okWith (rb 0x10 1 port ||| rb 0x11 1 entry |||
          rb 0x14 4 (fld (patternHeader k m cmd) 128 32) ||| rb 0x18 1 (fld (patternHeader k m cmd) 56 4))) ∧
        patternOf b port entry = patternHeader k m cmd ∧ Tbl.get [] (getPort b port).cur.coefs entry = rows ∧
        Tbl.get [] (getPort b port).cur.checks entry = checkColumn k rows ∧
        Tbl.get 0 (getPort b port).cur.epochs entry = (getTenant ch (p 0x10 2)).epoch ∧
        (∀ q e, q ≠ port ∨ e ≠ entry → patternOf b q e = patternOf ch q e) ∧ b = { ch with ports := b.ports }) ∧
    (Served s mb slot 0x0705 cmd → paramsOk cmd three = true → patternDenied ch mb cmd = false →
      patternRangeOk cmd = true →
      ((patternOf ch port entry).getLsbD 0 = false → exec (.xnPatternClear mb) s = done T {}) ∧
      ((patternOf ch port entry).getLsbD 0 = true → patternForeign ch cmd = false → patternInUse ch port entry = false →
        ∃ b, exec (.xnPatternClear mb) s = done { T with chip := b } {} ∧ patternOf b port entry = 0 ∧
          (∀ q e, q ≠ port ∨ e ≠ entry → patternOf b q e = patternOf ch q e) ∧ b = { ch with ports := b.ports })) ∧
    (Served s mb slot 0x0706 cmd → paramsOk cmd three = true → patternDenied ch mb cmd = false →
      patternRangeOk cmd = true → patternForeign ch cmd = false →
      exec (.xnPatternQuery mb) s = done T (okWith (if (patternOf ch port entry).getLsbD 0 = true
        then rb 0x10 32 (patternOf ch port entry).toNat else 0)))

/-- XN_GROUP_STAGE, XN_GROUP_COMMIT, XN_GROUP_QUERY, XN_KEK_EXPORT and XN_GROUP_LEAVE (R305 to R309): the halves of a
descriptor are staged; a commit and a leave wait for their group record; an export changes no key and puts its blob
in BLOB_OUT. The model's choices that it rests on: log entries 39, 78, 105. -/
def Obligations.GroupCommands : Prop :=
  ∀ (mb : Fin 1028) (slot : Nat) (cmd : CommandWord) (s : State),
    let T := started s mb slot
    let ch := T.chip
    let fw := ch.fw
    let p (off n : Nat) : Nat := cb cmd off n
    let done (t : State) (r : Reply) : Out := .next (answered s mb slot t r)
    let waits (t : State) (w : Wait) : Out := .next (waiting s mb slot t w)
    (Served s mb slot 0x0801 cmd → paramsOk cmd [(0x10, 1), (0x12, 16)] = true →
      let words := (callOf s mb slot).blob
      (p 0x12 2 ≠ 128 ∨ blobWords words 128 = false → exec (.xnGroupStage mb) s = done T (failAt 1 stBadField)) ∧
      (p 0x12 2 = 128 → blobWords words 128 = true → exec (.xnGroupStage mb) s = done { T with chip := { ch with
        fw := { fw with part0 := if p 0x10 1 = 0 then some (blobBytes words 128) else fw.part0
                        part1 := if p 0x10 1 = 0 then fw.part1 else some (blobBytes words 128) } } } {})) ∧
    (∀ a c, Served s mb slot 0x0802 cmd → paramsOk cmd [] = true → fw.part0 = some a → fw.part1 = some c →
      groupCommitFail ch mb (a ++ c) = none →
      let d := a ++ c
      (fw.group ≠ 0 → d = fw.desc →
        exec (.xnGroupCommit mb) s = done { T with chip := { ch with fw := { fw with part0 := none, part1 := none } } }
          (okWith (rb 0x10 4 (gdEpoch d) ||| rb 0x14 2 (gdSlot d) ||| rb 0x16 1 fw.matchBits |||
            rb 0x18 6 (ch.damson.highest.getD 0)))) ∧
      (fw.group = 0 ∨ d ≠ fw.desc →
        ∃ b, exec (.xnGroupCommit mb) s = waits { T with chip := b } (.group d false (nowUs ch + 20000)) ∧
          b.fw.groupSeq = fw.groupSeq + 1 ∧ b.fw.desc = fw.desc ∧ b.fw.group = fw.group ∧ b.keys = ch.keys ∧
          b.cfg = ch.cfg ∧ b.damson = ch.damson)) ∧
    (Served s mb slot 0x0803 cmd → paramsOk cmd [] = true →
      exec (.xnGroupQuery mb) s = done T (okWith (rb 0x10 1 fw.group ||| rb 0x11 1 fw.matchBits |||
        (if fw.group = 0 then 0 else rb 0x12 2 (gdSlot fw.desc) ||| rb 0x14 4 (gdEpoch fw.desc) |||
          rb 0x18 4 (if fw.hasPrev then gdEpoch fw.desc - 1 else 0) ||| rb 0x1C 2 (gdMembers fw.desc) |||
          rb 0x28 8 (ofLE ((groupDigest fw.desc).take 8))) |||
        rb 0x20 4 (gtkEpoch ch.keys.gtkCur) ||| rb 0x24 4 (gtkEpoch ch.keys.gtkPrev)))) ∧
    (∀ gtk kek, Served s mb slot 0x0804 cmd → paramsOk cmd [(0x10, 8), (0x12, 16)] = true → p 0x10 1 < 16 →
      p 0x12 2 < 1024 → fw.group = 2 → exportGtk ch = some gtk → kekReserved ch (16 * p 0x12 2 + p 0x10 1) = false →
      kekKey ch (16 * p 0x12 2 + p 0x10 1) = some kek →
      ∃ b, MbNow ch b mb { getMb ch mb with blobOut := some (slot, dkkBlob gtk (p 0x12 2) (p 0x10 1) kek) } ∧
        exec (.xnKekExport mb) s = done { T with chip := b }
          (okWith (rb 0x10 2 56 ||| rb 0x14 4 (gdEpoch fw.desc) ||| rb 0x18 3 (kcvNum kek)))) ∧
    (Served s mb slot 0x0805 cmd → paramsOk cmd [] = true → leaveFail ch mb = none →
      ∃ b, exec (.xnGroupLeave mb) s = waits { T with chip := b } (.group [] true (nowUs ch + 5000)) ∧
        b.fw.group = 0 ∧ b.fw.desc = [] ∧ b.fw.matchBits = 0 ∧ b.fw.groupSeq = fw.groupSeq + 1 ∧ b.keys = ch.keys ∧
        b.cfg = ch.cfg ∧ b.damson = ch.damson)

/-- XN_PIP_READ, XN_TIME_MARK and XN_LOG_FLUSH (R311 to R313): a tenant reads the Pips that name it and no other; a
flush of an empty recorder answers at once and waits otherwise; reads and queries change nothing. The model's choices
that it rests on: log entry 112. -/
def Obligations.RecordCommands : Prop :=
  ∀ (mb : Fin 1028) (slot : Nat) (cmd : CommandWord) (s : State),
    let T := started s mb slot
    let ch := T.chip
    let r := ch.recorder
    let p (off n : Nat) : Nat := cb cmd off n
    let i := p 0x10 4
    let done (t : State) (r : Reply) : Out := .next (answered s mb slot t r)
    let mine (x : Pip) : Prop := 1024 ≤ mb.val ∨ pipTenant x = some mb.val
    (Served s mb slot 0x0902 cmd → paramsOk cmd [(0x10, 32), (0x14, 1)] = true →
      (p 0x14 1 = 0 →
        (pipAt T i = none → exec (.xnPipRead mb) s = done T (failAt 2 stBadField)) ∧
        (∀ x, pipAt T i = some x → mine x → exec (.xnPipRead mb) s = done T (okWith (rb 0x10 32 x.toNat))) ∧
        (∀ x, pipAt T i = some x → ¬ mine x → exec (.xnPipRead mb) s = done T (failAt 1 stDenied))) ∧
      (p 0x14 1 = 1 → (pipAt T i).isSome = true → mb.val ≠ 1025 → mb.val ≠ 1026 →
        (∀ k x, k < 4096 → pipAt T (i + k) = some x → mine x → (∀ j, j < k → ∀ y, pipAt T (i + j) = some y → ¬ mine y) →
          exec (.xnPipRead mb) s = done T (okWith (rb 0x10 32 x.toNat ||| rb 0x30 4 (i + k)))) ∧
        ((∀ k, k < 4096 → ∀ y, pipAt T (i + k) = some y → ¬ mine y) →
          exec (.xnPipRead mb) s = done T (okWith (rb 0x30 4 (i + 4096)))))) ∧
    (Served s mb slot 0x0903 cmd → paramsOk cmd [(0x10, 64), (0x18, 8)] = true →
      ∃ b, exec (.xnTimeMark mb) s = done { T with chip := b } {} ∧ b.cfg = ch.cfg ∧ b.keys = ch.keys ∧ b.ports = ch.ports ∧
        b.faults.sticky = ch.faults.sticky ∧ b.rng = ch.rng) ∧
    (Served s mb slot 0x0904 cmd → paramsOk cmd [] = true →
      (r.full = true ∨ (r.handed = [] ∧ r.filling = []) → exec (.xnLogFlush mb) s = done T (okWith (rb 0x10 4 r.wpos))) ∧
      (r.full = false → r.handed ≠ [] ∨ r.filling ≠ [] →
        ∃ b, exec (.xnLogFlush mb) s = .next (waiting s mb slot { T with chip := b } (.flush (halvesLeft r))) ∧
          b.cfg = ch.cfg ∧ b.keys = ch.keys ∧ (r.handed = [] → r.waiting = false → b.recorder.filling = [] ∧
            (r.wpos + 1 < logSize → b.recorder.handed = r.filling))))

/-- XN_FAULT_QUERY, XN_FAULT_SEVERITY, XN_UNIT_QUERY, XN_UNIT_FENCE, XN_UNIT_REVIVE and XN_FAULT_CTL (R314 to R318):
a severity at or above the floor is in force for its index alone; a fence or revive with a stale SGEN is refused, one
that finds the live table moved restores the mirror and is refused too (R378), and one that changes nothing answers
ST_OK; a fence of a unit being reset waits for its end (R353); a revive needs a fenced unit that passes its tests. The model's choices that
it rests on: log entries 18, 39, 43, 111. -/
def Obligations.FaultCommands : Prop :=
  ∀ (mb : Fin 1028) (slot : Nat) (cmd : CommandWord) (s : State),
    let T := started s mb slot
    let ch := T.chip
    let p (off n : Nat) : Nat := cb cmd off n
    let src := p 0x10 2
    let done (t : State) (r : Reply) : Out := .next (answered s mb slot t r)
    let echo (c : Chip) (id : Nat) : Nat := rb 0x10 2 (getUnit c id).sgen ||| rb 0x12 1 (stateCode (getUnit c id).live)
    (Served s mb slot 0x0A01 cmd → paramsOk cmd [(0x10, 16)] = true →
      (srcSticky src = none → exec (.xnFaultQuery mb) s = done T (failAt 1 stBadField)) ∧
      (∀ ix, srcSticky src = some ix → let f := getSrc ch src
        exec (.xnFaultQuery mb) s = done T (okWith (rb 0x10 2 src ||| rb 0x12 1 (bitIf (getSticky ch ix).bit 0) |||
          rb 0x13 1 (sevOf ch ix) ||| rb 0x14 1 (floorSev ix) ||| rb 0x15 1 (bitIf (rindDisabled T src) 0 ||| bitIf f.conseq 1) |||
          rb 0x16 2 f.rep ||| rb 0x18 1 f.kind ||| rb 0x19 1 f.seen ||| rb 0x1C 4 f.ctx.toNat)))) ∧
    (Served s mb slot 0x0A02 cmd → paramsOk cmd [(0x10, 16), (0x12, 8)] = true → ∀ ix, srcSticky src = some ix →
      p 0x12 1 ≤ 4 → rindDisabled T src = false →
      (p 0x12 1 < floorSev ix → exec (.xnFaultSeverity mb) s = done T (failAt 2 stDenied)) ∧
      (floorSev ix ≤ p 0x12 1 → ∃ b, exec (.xnFaultSeverity mb) s = done { T with chip := b } {} ∧
        sevOf b ix = p 0x12 1 ∧ (getSticky b ix).bit = (getSticky ch ix).bit ∧
        (∀ j, j ≠ ix → getSticky b j = getSticky ch j) ∧
        b = { ch with faults := { ch.faults with sticky := b.faults.sticky } })) ∧
    (Served s mb slot 0x0A03 cmd → paramsOk cmd [(0x10, 16)] = true →
      (unitNamed src = none → exec (.xnUnitQuery mb) s = done T (failAt 1 stBadField)) ∧
      (∀ id, unitNamed src = some id → let u := getUnit ch id
        exec (.xnUnitQuery mb) s = done T (okWith (rb 0x12 1 (stateCode u.live) ||| rb 0x13 1 (stateCode u.mirror) |||
          rb 0x14 2 u.sgen ||| rb 0x16 1 (u.resets.filter fun t => nowUs ch < t + 1000000).length ||| rb 0x17 1 u.cause)))) ∧
    (∀ id, unitNamed src = some id → paramsOk cmd [(0x10, 16), (0x12, 16)] = true → s.chip.ctl.stall = none →
      let u := getUnit ch id
      (∀ i, (i = .xnUnitFence mb ∧ Served s mb slot 0x0A04 cmd) ∨
          (∃ pass, i = .xnUnitRevive mb pass) ∧ Served s mb slot 0x0A05 cmd →
        u.msgen ≠ p 0x12 2 → exec i s = done T { status := stStateMoved, detail := 0x82, result := echo ch id }) ∧
      (u.msgen = p 0x12 2 → Served s mb slot 0x0A04 cmd →
        let stays : Prop := (u.live = .fenced ∨ u.live = .down) ∧ ¬ (u.resetting = true ∧ u.fenceNext = none)
        (stays → exec (.xnUnitFence mb) s = done T { result := echo ch id }) ∧
        (¬ stays → fenceCheck T id = none → u.sgen ≠ u.msgen →
          exec (.xnUnitFence mb) s = done { T with chip := restoreMirror ch id }
            { status := stStateMoved, detail := 0x82, result := echo (restoreMirror ch id) id }) ∧
        (u.live = .fenced → u.resetting = true → u.fenceNext = none → fenceCheck T id = none → u.sgen = u.msgen →
          isUnit5 6 id = false → ∃ b, exec (.xnUnitFence mb) s = done { T with chip := b } { result := echo ch id } ∧
            b = { ch with faults := { ch.faults with units := b.faults.units } } ∧
            OnlyAt getUnit ch b id { u with fenceNext := some 3 }) ∧
        (u.live = .fenced → u.resetting = true → isUnit5 6 id = true → u.sgen = u.msgen →
          exec (.xnUnitFence mb) s = done T { result := echo ch id }) ∧
        (u.live = .active ∨ u.live = .spare → u.resetting = false → fenceCheck T id = none → u.sgen = u.msgen →
          ∃ t, exec (.xnUnitFence mb) s = done t { result := echo t.chip id } ∧ t.chip.cfg = ch.cfg ∧
            (isUnit5 6 id = false → (getUnit t.chip id).live = .down ∧ (getUnit t.chip id).cause = 3) ∧
            (isUnit5 6 id = true → (getUnit t.chip id).resetting = true))) ∧
      (u.msgen = p 0x12 2 → Served s mb slot 0x0A05 cmd →
        (∀ pass, u.live = .active ∨ u.live = .spare →
          exec (.xnUnitRevive mb pass) s = done T { result := echo ch id }) ∧
        (u.live = .down → u.mirror = .down → u.sgen = u.msgen → (∀ ix, srcSticky id = some ix → (getSticky ch ix).bit = false) →
          exec (.xnUnitRevive mb false) s = done T { status := stDenied, detail := 0x86, result := echo ch id } ∧
          ∃ t, exec (.xnUnitRevive mb true) s = done t { result := echo t.chip id } ∧ t.chip.cfg = ch.cfg ∧
            (getUnit t.chip id).live = afterReset ch id ∧ (getUnit t.chip id).resets = [] ∧
            (getUnit t.chip id).sgen = (u.sgen + 1) % 65536 ∧ (∀ j, j ≠ id → getUnit t.chip j = getUnit ch j)))) ∧
    (Served s mb slot 0x0A06 cmd → paramsOk cmd [(0x10, 2), (0x12, 16), (0x14, 16)] = true → faultCtlOk cmd = true →
      let settle := if (p 0x10 1).testBit 0 = true then p 0x12 2 else ch.faults.settle
      let level := if (p 0x10 1).testBit 1 = true then p 0x14 2 else ch.faults.replaceLevel
      ∃ b, exec (.xnFaultCtl mb) s = done { T with chip := b } (okWith (rb 0x12 2 settle ||| rb 0x14 2 level)) ∧
        b.faults.settle = settle ∧ b.faults.replaceLevel = level ∧ b.faults.sticky = ch.faults.sticky ∧
        b.faults.units = ch.faults.units ∧ b.cfg = ch.cfg)

/-- XN_FW_QUERY, XN_STAGE_OPEN, XN_STAGE_WRITE, XN_STAGE_CLOSE, XN_FW_ACTIVATE and XN_SVN_COMMIT (R319 to R325): a
session's opening and writes run as jobs; a close by VERIFY copies an image into the idle bank (R435) and sets the target
VERIFIED or INVALID, as the checks of the image or copy find, and needs a free job handle; the SVN count rises to the number
committed. The model's choices that it rests on: log entries 7, 63, 64, 65, 107, 139, 167. -/
def Obligations.FirmwareCommands : Prop :=
  ∀ (mb : Fin 1028) (slot : Nat) (cmd : CommandWord) (s : State),
    let T := started s mb slot
    let ch := T.chip
    let fw := ch.fw
    let p (off n : Nat) : Nat := cb cmd off n
    let done (t : State) (r : Reply) : Out := .next (answered s mb slot t r)
    let handle := nextHandle ch mb
    let running : Reply := { status := stInProgress, job := handle.toNat }
    (Served s mb slot 0x0B01 cmd → paramsOk cmd [] = true → exec (.xnFwQuery mb) s = done T (okWith (fwView T))) ∧
    (Served s mb slot 0x0B02 cmd → paramsOk cmd [(0x10, 8), (0x14, 32)] = true → stageOpenFail ch mb cmd = none →
      let t := p 0x10 1
      let which := targetOf fw t
      let lo := targetBase t which
      ∃ b, exec (.xnStageOpen mb) s = done { T with chip := b } running ∧ b.cfg = ch.cfg ∧ b.keys = ch.keys ∧
        (imgOf b.fw t which).st = .staging ∧
        b.fw.stage = some { mb := mb, target := t, which := which, length := p 0x14 4, spans := []
                            jobs := [{ handle := handle, writing := false, lo := lo, hi := lo + targetSize t }] }) ∧
    (∀ g, Served s mb slot 0x0B03 cmd → paramsOk cmd [(0x10, 96)] = true → fw.stage = some g →
      stageWriteFail ch mb cmd = none →
      let at0 := targetBase g.target g.which + p 0x10 8
      ∃ b, exec (.xnStageWrite mb) s = done { T with chip := b } running ∧ b.cfg = ch.cfg ∧ b.keys = ch.keys ∧
        b.fw.stage = some { g with
          spans := g.spans ++ [(p 0x10 8, p 0x18 4)]
          jobs := g.jobs ++ [{ handle := handle, writing := true, lo := at0, hi := at0 + p 0x18 4 }] }) ∧
    (∀ g, Served s mb slot 0x0B04 cmd → paramsOk cmd [(0x10, 8)] = true → fw.stage = some g → g.mb = mb →
      (p 0x10 1 = 2 ∨ p 0x10 1 = 1 ∧ stagedBytes g = g.length ∧ g.jobs = [] → jobFree ch mb = false →
        exec (.xnStageClose mb) s = done T { status := stNoResource, detail := 0x7D }) ∧
      (p 0x10 1 = 2 → jobFree ch mb = true → ∃ b, exec (.xnStageClose mb) s = done { T with chip := b } {} ∧ b.fw.stage = none ∧
        (imgOf b.fw g.target g.which).st = .invalid ∧ b.cfg = ch.cfg) ∧
      (p 0x10 1 = 1 → stagedBytes g = g.length → g.jobs = [] → jobFree ch mb = true →
        (∀ i, stageVerdict T g = .ok i → ∃ b, exec (.xnStageClose mb) s = done { T with chip := b } {} ∧
          b.fw.stage = none ∧ b.fw.window = [] ∧ imgOf b.fw g.target g.which = i ∧ b.fw.running = fw.running ∧
          (g.target = 1 → getBank b.fw (1 - fw.bank) = loadedBank (loadSlot T g.which (some g.length)))) ∧
        (∀ d, stageVerdict T g = .error d → ∃ b, exec (.xnStageClose mb) s =
            done { T with chip := b } { status := stAuthFail, detail := d } ∧
          b.fw.stage = none ∧ b.fw.window = [] ∧ (imgOf b.fw g.target g.which).st = .invalid ∧ b.fw.running = fw.running ∧
          (g.target = 1 → getBank b.fw (1 - fw.bank) = loadedBank (loadSlot T g.which (some g.length)))))) ∧
    (Served s mb slot 0x0B05 cmd → paramsOk cmd [(0x10, 16)] = true → activateFail ch mb cmd = none →
      (p 0x11 1 = 1 → ∃ b, exec (.xnFwActivate mb) s = done { T with chip := b } {} ∧ b.cfg = ch.cfg ∧ b.keys = ch.keys ∧
        b.fw.running = fw.running ∧ (p 0x10 1 = 1 → b.fw.bootSlot = targetOf fw 1) ∧
        (p 0x10 1 = 2 → b.fw.setCopy = targetOf fw 2)) ∧
      (p 0x11 1 = 2 → ∃ b, exec (.xnFwActivate mb) s = done { T with chip := b } running ∧
        b.fw = { fw with activate := some (handle, targetOf fw 1) } ∧ b.cfg = ch.cfg ∧ b.keys = ch.keys)) ∧
    (Served s mb slot 0x0B06 cmd → paramsOk cmd [(0x10, 8), (0x18, 64)] = true → s.otp.svn < p 0x10 1 →
      p 0x10 1 ≤ (runningImg ch).svn → p 0x10 1 ≤ 64 → p 0x18 8 = svnConfirm →
      (∃ b, exec (.xnSvnCommit mb true) s = done { T with otp := { s.otp with svn := p 0x10 1 }, chip := b } {} ∧
        b.cfg = ch.cfg ∧ b.keys = ch.keys ∧ b.fw.running = fw.running) ∧
      (∃ b n, exec (.xnSvnCommit mb false) s = done { T with otp := { s.otp with svn := n }, chip := b } (failAt 3 stDenied) ∧
        s.otp.svn ≤ n ∧ n < p 0x10 1 ∧ b.cfg = ch.cfg ∧ b.keys = ch.keys))

/-- R289: XN_DUAL_STATUS takes no parameters and reports the most recent session, by Table 12.17. A session whose
window has passed has ended first (R128). -/
def Obligations.DualStatusReports : Prop :=
  ∀ (mb : Fin 1028) (slot : Nat) (cmd : CommandWord) (s : State), Served s mb slot 0x0C04 cmd → paramsOk cmd [] = true →
    let ch := (started s mb slot).chip
    let n := ch.keys.session
    (sessionOpen s.chip.keys.session = true → s.chip.keys.session.expiry ≤ nowUs s.chip → n.state = 5 ∧ n.cause = 1) ∧
    ∃ t, exec (.xnDualStatus mb) s = .next t ∧ Responded t mb slot stOk 0 ∧ t.chip.keys = ch.keys ∧ t.chip.cfg = s.chip.cfg ∧
      respAt t mb slot 0x10 2 = n.num % 2 ^ 16 ∧ respAt t mb slot 0x12 1 = n.purpose % 256 ∧
      respAt t mb slot 0x13 1 = n.state % 256 ∧ (n.state = 5 → respAt t mb slot 0x14 1 = n.cause % 256) ∧
      respAt t mb slot 0x18 8 = n.expiry % 2 ^ 64 ∧ (n.state = 4 → respAt t mb slot 0x20 3 = ofLE n.kcv % 2 ^ 24) ∧
      (n.state ≠ 4 → respAt t mb slot 0x20 3 = 0)

/-- R303: XN_PROFILE_SET and XN_PROFILE_CLEAR run three checks in order; what the profile already holds is answered
between the first and the second and changes nothing; XN_PROFILE_QUERY returns the word and the three counts. -/
def Obligations.ProfileCommands : Prop :=
  ∀ (mb : Fin 1028) (slot : Nat) (cmd : CommandWord) (s : State),
    let T := started s mb slot
    let ch := T.chip
    let p (off n : Nat) : Nat := cb cmd off n
    let done (t : State) (r : Reply) : Out := .next (answered s mb slot t r)
    let prof := p 0x10 1
    let old := Tbl.get (0#32) ch.cfg.profiles prof
    let now (b : Chip) (w : BitVec 32) (checks : List Byte) : Prop := Tbl.get (0#32) b.cfg.profiles prof = w ∧
      Tbl.get [] b.cfg.encodeChecks prof = checks ∧
      (∀ j, j ≠ prof → Tbl.get (0#32) b.cfg.profiles j = Tbl.get 0 ch.cfg.profiles j) ∧
      (∀ j, j ≠ prof → Tbl.get [] b.cfg.encodeChecks j = Tbl.get [] ch.cfg.encodeChecks j) ∧
      b = { ch with cfg := { ch.cfg with profiles := b.cfg.profiles, encodeChecks := b.cfg.encodeChecks }, cfgOld := ch.cfg, oldGen := ch.admitGen
                    admitGen := (ch.admitGen + 1) % 65536, live2 := true }
    let follows (i : Instr) (inRange : Prop) (w : BitVec 32) (checks : List Byte) : Prop :=
      (¬ inRange → exec i s = done T (failAt 1 stBadField)) ∧
      (inRange → old = w → exec i s = done T {}) ∧
      (inRange → old ≠ w → profileBusy ch prof = true → exec i s = done T (failAt 2 stBusy)) ∧
      (inRange → old ≠ w → profileBusy ch prof = false → ch.live2 = true → exec i s = done T (failAt 3 stGenBusy)) ∧
      (inRange → old ≠ w → profileBusy ch prof = false → ch.live2 = false →
        ∃ b, now b w checks ∧ exec i s = done { T with chip := b } {})
    (Served s mb slot 0x0701 cmd → paramsOk cmd [(0x10, 8), (0x11, 8), (0x12, 8)] = true →
      follows (.xnProfileSet mb) (prof < 64 ∧ 2 ≤ p 0x11 1 ∧ p 0x11 1 ≤ 24 ∧ 1 ≤ p 0x12 1 ∧ p 0x12 1 ≤ 8)
        (BitVec.ofNat 32 (2 ^ 31 + 256 * p 0x11 1 + p 0x12 1)) (encodeChecks (p 0x11 1) (p 0x12 1))) ∧
    (Served s mb slot 0x0702 cmd → paramsOk cmd [(0x10, 8)] = true → follows (.xnProfileClear mb) (prof < 64) 0 []) ∧
    (Served s mb slot 0x0703 cmd → paramsOk cmd [(0x10, 8)] = true → prof < 64 →
      exec (.xnProfileQuery mb) s = done T (okWith (rb 0x10 4 old.toNat ||| rb 0x14 2 (openRows ch prof) |||
        rb 0x16 2 (codingReqs ch prof) ||| rb 0x18 2 (patternsOf ch prof))))

/-- XN_LOG_STATUS (R310) returns the Pips in flash, the unflushed Pips, FLAGS, the boot count and the microseconds
since boot, in the bytes that the rule gives. That the Pips of a half handed over and not yet in flash count as unflushed
(byte 0x14) is the model's reading (log entry 49, DEDUCED). -/
def Obligations.LogStatusReturns : Prop :=
  ∀ (mb : Fin 1028) (slot : Nat) (cmd : CommandWord) (s : State), Served s mb slot 0x0901 cmd → paramsOk cmd [] = true →
    let ch := (started s mb slot).chip
    let r := ch.recorder
    ∃ t, exec (.xnLogStatus mb) s = .next t ∧ Responded t mb slot stOk 0 ∧ t.chip.cfg = s.chip.cfg ∧
      respAt t mb slot 0x10 4 = r.wpos % 2 ^ 32 ∧ respAt t mb slot 0x14 1 = (unflushed ch).length % 256 ∧
      (respAt t mb slot 0x15 1).testBit 0 = r.full ∧ (respAt t mb slot 0x15 1).testBit 1 = r.clearing.isSome ∧
      respAt t mb slot 0x16 2 = ch.boots % 2 ^ 16 ∧ respAt t mb slot 0x18 8 = nowUs ch % 2 ^ 64

/-- The state at PWR_OK (Chapter 14, R55, R115, R223, R226, R242, R419): every port and tenant is DISABLED, every
slot EMPTY, no region or profile valid, one generation live, the staged registers at their reset values, the flash
tables canonical. The model's choices that it rests on: log entries 12, 71. -/
def Obligations.ResetValues : Prop :=
  let c := State.reset.chip
  (∀ p, (getPort c p).st = .disabled) ∧ (∀ p, (getLine c p).st = .disabled) ∧ (∀ t, (getTenant c t).st = .disabled) ∧
    (∀ k, dState (slotDesc c k) = ssEmpty) ∧ (∀ e, ldState (lineDesc c e) = ssEmpty) ∧
    (∀ r, rgKind (regionOf c.cfg r) = 0) ∧ (∀ i, profValid c.cfg i = false) ∧ c.live2 = false ∧ c.admitGen = 0 ∧
    (∀ off, cfgReg c.cfg off = stagedReset off) ∧ (∀ m i, (Tbl.get {} (getMb c m).slots i).st = .free) ∧
    c.flitGap = 8 ∧ c.rngStallMax = 100 ∧ c.keys.ck = none ∧ c.rng.seeded = false ∧ c.dstate = 0 ∧ halted c = false ∧
    State.reset.pending = [] ∧ FlashCanonical State.reset

/-- Every step keeps the flash tables in their one canonical form (R419): no step writes a page that it does not
need. The model's choices that it rests on: log entry 12. -/
def Obligations.FlashStaysCanonical : Prop :=
  ∀ s t : State, FlashCanonical s → step s = .next t → FlashCanonical t

/-- Every step only grows the one-time-programmable state (R135, R150, R324, R390, R393 to R395, R438): no fuse is
restored, no count falls, and no slot of the tamper log or owner root changes. The model's choices that it rests on:
log entries 20, 70, 91. -/
def Obligations.OtpNeverShrinks : Prop :=
  ∀ s t : State, step s = .next t → OtpGrows s.otp t.otp
end

