-- ==== Sys2Proof/Laws/Bits.lean ====
section
/-! SUPPORT. Laws of bit fields: what a field of a word reads when the word is put together from fields. -/

namespace Sys2Proof.Machine

theorem testBit_bits (v lo w i : Nat) : (bits v lo w).testBit i = (decide (i < w) && v.testBit (lo + i)) := by
  unfold bits
  rw [Nat.testBit_mod_two_pow, Nat.testBit_shiftRight]

theorem testBit_field (lo w v i : Nat) :
    (field lo w v).testBit i = (decide (lo ≤ i) && (decide (i - lo < w) && v.testBit (i - lo))) := by
  unfold field
  rw [Nat.testBit_shiftLeft, Nat.testBit_mod_two_pow]

theorem bits_or (a b lo w : Nat) : bits (a ||| b) lo w = bits a lo w ||| bits b lo w := by
  apply Nat.eq_of_testBit_eq
  intro i
  simp only [testBit_bits, Nat.testBit_or]
  cases decide (i < w) <;> simp

theorem bits_zero (lo w : Nat) : bits 0 lo w = 0 := by simp [bits]

/-- A field reads the part of the value that was put there. -/
theorem bits_field_in (lo w v lo' w' : Nat) (h : lo ≤ lo') (h' : lo' + w' ≤ lo + w) :
    bits (field lo w v) lo' w' = bits v (lo' - lo) w' := by
  apply Nat.eq_of_testBit_eq
  intro i
  simp only [testBit_bits, testBit_field]
  by_cases hi : i < w'
  · have h1 : lo ≤ lo' + i := by omega
    have h2 : lo' + i - lo < w := by omega
    have h3 : lo' + i - lo = lo' - lo + i := by omega
    simp [hi, h1, h3 ▸ h2, h3]
  · simp [hi]

/-- A field leaves the bits beside it zero. -/
theorem bits_field_out (lo w v lo' w' : Nat) (h : lo' + w' ≤ lo ∨ lo + w ≤ lo') : bits (field lo w v) lo' w' = 0 := by
  apply Nat.eq_of_testBit_eq
  intro i
  simp only [testBit_bits, testBit_field, Nat.zero_testBit]
  by_cases hi : i < w'
  · by_cases h1 : lo ≤ lo' + i
    · have h2 : ¬ lo' + i - lo < w := by omega
      simp [h2]
    · simp [h1]
  · simp [hi]

/-- Cutting a word above a field leaves the field. -/
theorem bits_mod (v n lo w : Nat) (h : lo + w ≤ n) : bits (v % 2 ^ n) lo w = bits v lo w := by
  apply Nat.eq_of_testBit_eq
  intro i
  simp only [testBit_bits, Nat.testBit_mod_two_pow]
  by_cases hi : i < w
  · have : lo + i < n := by omega
    simp [this]
  · simp [hi]

theorem bits_low (v w : Nat) (h : v < 2 ^ w) : bits v 0 w = v := by
  simp [bits, Nat.mod_eq_of_lt h]

theorem bytesAt_or (a b off n : Nat) : bytesAt (a ||| b) off n = bytesAt a off n ||| bytesAt b off n := bits_or _ _ _ _

theorem bytesAt_putAt_in (off n v off' n' : Nat) (h : off ≤ off') (h' : off' + n' ≤ off + n) :
    bytesAt (putAt off n v) off' n' = bytesAt v (off' - off) n' := by
  unfold bytesAt putAt
  rw [bits_field_in _ _ _ _ _ (by omega) (by omega), Nat.mul_sub]

theorem bytesAt_putAt_out (off n v off' n' : Nat) (h : off' + n' ≤ off ∨ off + n ≤ off') :
    bytesAt (putAt off n v) off' n' = 0 := bits_field_out _ _ _ _ _ (by omega)

theorem bytesAt_putAt_self (off n v : Nat) (h : v < 2 ^ (8 * n)) : bytesAt (putAt off n v) off n = v := by
  rw [bytesAt_putAt_in _ _ _ _ _ (Nat.le_refl _) (Nat.le_refl _), Nat.sub_self]
  exact bits_low v _ h

theorem bytesAt_ofNat (k v off n : Nat) (h : 8 * off + 8 * n ≤ k) :
    bytesAt (BitVec.ofNat k v).toNat off n = bytesAt v off n := by
  rw [BitVec.toNat_ofNat]
  exact bits_mod v k _ _ h

/-! ### Replacing a field -/

theorem testBit_setFld {k : Nat} (v : BitVec k) (lo n x i : Nat) :
    (setFld v lo n x).toNat.testBit i =
      (decide (i < k) && if lo ≤ i ∧ i < lo + n then x.testBit (i - lo) else v.toNat.testBit i) := by
  unfold setFld
  rw [BitVec.testBit_toNat, BitVec.getLsbD_or, BitVec.getLsbD_and, BitVec.getLsbD_not, BitVec.getLsbD_ofNat,
    BitVec.getLsbD_ofNat, testBit_field, Nat.testBit_shiftLeft, Nat.testBit_two_pow_sub_one, ← BitVec.testBit_toNat]
  by_cases hk : i < k
  · by_cases h1 : lo ≤ i
    · by_cases h2 : i < lo + n
      · have h3 : i - lo < n := by omega
        simp [hk, h1, h2, h3]
      · have h3 : ¬ i - lo < n := by omega
        simp [hk, h1, h2, h3]
    · have h2 : ¬ i ≥ lo := by omega
      simp [hk, h1]
  · simp [hk]

/-- The field that was replaced reads the new value. -/
theorem fld_setFld_self {k : Nat} (v : BitVec k) (lo n x : Nat) (h : lo + n ≤ k) : fld (setFld v lo n x) lo n = x % 2 ^ n := by
  apply Nat.eq_of_testBit_eq
  intro i
  unfold fld
  rw [testBit_bits, testBit_setFld, Nat.testBit_mod_two_pow]
  by_cases hi : i < n
  · have h1 : lo + i < k := by omega
    have h2 : lo + i < lo + n := by omega
    have h3 : lo + i - lo = i := by omega
    simp [hi, h1]
  · simp [hi]

/-- Every field beside it reads as before. -/
theorem fld_setFld_other {k : Nat} (v : BitVec k) (lo n x lo' n' : Nat) (h : lo' + n' ≤ lo ∨ lo + n ≤ lo') :
    fld (setFld v lo n x) lo' n' = fld v lo' n' := by
  apply Nat.eq_of_testBit_eq
  intro i
  unfold fld
  rw [testBit_bits, testBit_bits, testBit_setFld]
  by_cases hi : i < n'
  · have h1 : ¬ (lo ≤ lo' + i ∧ lo' + i < lo + n) := by omega
    by_cases hk : lo' + i < k
    · simp [hi, h1, hk]
    · have : v.toNat.testBit (lo' + i) = false := by
        rw [BitVec.testBit_toNat]; exact BitVec.getLsbD_of_ge v _ (by omega)
      simp [hk, this]
  · simp [hi]

end Sys2Proof.Machine
end

