-- ==== Sys2Proof/Laws/Tables.lean ====
section
/-! SUPPORT. Laws of the sparse arrays and the quadruples: a read after a write, and the canonical form. -/

namespace Sys2Proof.Machine

variable {α : Type}

/-! ### A read after a write -/

theorem Tbl.get_nil (d : α) (k : Nat) : Tbl.get d [] k = d := rfl

theorem Tbl.get_cons_self (d : α) (k : Nat) (v : α) (t : Tbl α) : Tbl.get d ((k, v) :: t) k = v := by
  simp [Tbl.get]

theorem Tbl.get_cons_other (d : α) {j k : Nat} (h : k ≠ j) (v : α) (t : Tbl α) :
    Tbl.get d ((j, v) :: t) k = Tbl.get d t k := by
  have : (k == j) = false := by simpa using h
  simp [Tbl.get, List.lookup, this]

theorem Tbl.get_insert_self (d : α) (t : Tbl α) (k : Nat) (v : α) : Tbl.get d (Tbl.insert t k v) k = v := by
  induction t with
  | nil => exact Tbl.get_cons_self d k v []
  | cons e t ih =>
    obtain ⟨j, w⟩ := e
    unfold Tbl.insert
    split
    · exact Tbl.get_cons_self d k v _
    · split
      · exact Tbl.get_cons_self d k v _
      · rename_i h
        rw [Tbl.get_cons_other d h, ih]

theorem Tbl.get_insert_other (d : α) (t : Tbl α) {j k : Nat} (h : k ≠ j) (v : α) :
    Tbl.get d (Tbl.insert t j v) k = Tbl.get d t k := by
  induction t with
  | nil => exact Tbl.get_cons_other d h v []
  | cons e t ih =>
    obtain ⟨i, w⟩ := e
    unfold Tbl.insert
    split
    · exact Tbl.get_cons_other d h v _
    · split
      · rename_i hj
        subst hj
        rw [Tbl.get_cons_other d h, Tbl.get_cons_other d h]
      · by_cases hk : k = i
        · subst hk
          rw [Tbl.get_cons_self, Tbl.get_cons_self]
        · rw [Tbl.get_cons_other d hk, Tbl.get_cons_other d hk, ih]

theorem Tbl.get_erase_self (d : α) (t : Tbl α) (k : Nat) : Tbl.get d (Tbl.erase t k) k = d := by
  induction t with
  | nil => rfl
  | cons e t ih =>
    obtain ⟨j, w⟩ := e
    by_cases h : j = k
    · simpa [Tbl.erase, h] using ih
    · have : Tbl.erase ((j, w) :: t) k = (j, w) :: Tbl.erase t k := by simp [Tbl.erase, h]
      rw [this, Tbl.get_cons_other d (Ne.symm h), ih]

theorem Tbl.get_erase_other (d : α) (t : Tbl α) {j k : Nat} (h : k ≠ j) :
    Tbl.get d (Tbl.erase t j) k = Tbl.get d t k := by
  induction t with
  | nil => rfl
  | cons e t ih =>
    obtain ⟨i, w⟩ := e
    by_cases hi : i = j
    · subst hi
      have : Tbl.erase ((i, w) :: t) i = Tbl.erase t i := by simp [Tbl.erase]
      rw [this, Tbl.get_cons_other d h, ih]
    · have : Tbl.erase ((i, w) :: t) j = (i, w) :: Tbl.erase t j := by simp [Tbl.erase, hi]
      rw [this]
      by_cases hk : k = i
      · subst hk
        rw [Tbl.get_cons_self, Tbl.get_cons_self]
      · rw [Tbl.get_cons_other d hk, Tbl.get_cons_other d hk, ih]

variable [DecidableEq α]

/-- Reading an index gives what was written to it. -/
@[simp] theorem Tbl.get_set_self (d : α) (t : Tbl α) (k : Nat) (v : α) : Tbl.get d (Tbl.set d t k v) k = v := by
  unfold Tbl.set
  split
  · rename_i h
    rw [Tbl.get_erase_self, h]
  · exact Tbl.get_insert_self d t k v

/-- Writing an index leaves every other index alone. -/
theorem Tbl.get_set_other (d : α) (t : Tbl α) {j k : Nat} (h : k ≠ j) (v : α) :
    Tbl.get d (Tbl.set d t j v) k = Tbl.get d t k := by
  unfold Tbl.set
  split
  · exact Tbl.get_erase_other d t h
  · exact Tbl.get_insert_other d t h v

theorem Tbl.get_set (d : α) (t : Tbl α) (j k : Nat) (v : α) :
    Tbl.get d (Tbl.set d t j v) k = if k = j then v else Tbl.get d t k := by
  split
  · rename_i h
    rw [h, Tbl.get_set_self]
  · rename_i h
    exact Tbl.get_set_other d t h v

/-! ### The canonical form -/

theorem Tbl.wf_cons (d : α) (k : Nat) (v : α) (t : Tbl α) :
    Tbl.wf d ((k, v) :: t) = true ↔ v ≠ d ∧ (∀ e ∈ t, k < e.1) ∧ Tbl.wf d t = true := by
  simp [Tbl.wf, and_assoc]

theorem Tbl.wf_filter (d : α) (t : Tbl α) (p : Nat × α → Bool) (h : Tbl.wf d t = true) :
    Tbl.wf d (t.filter p) = true := by
  induction t with
  | nil => exact h
  | cons e t ih =>
    obtain ⟨k, v⟩ := e
    obtain ⟨hv, hlt, ht⟩ := (Tbl.wf_cons d k v t).1 h
    by_cases hp : p (k, v) = true
    · rw [List.filter_cons_of_pos hp]
      exact (Tbl.wf_cons d k v _).2 ⟨hv, fun e he => hlt e (List.mem_filter.1 he).1, ih ht⟩
    · rw [List.filter_cons_of_neg (by simpa using hp)]
      exact ih ht

theorem Tbl.wf_erase (d : α) (t : Tbl α) (k : Nat) (h : Tbl.wf d t = true) : Tbl.wf d (Tbl.erase t k) = true :=
  Tbl.wf_filter d t _ h

omit [DecidableEq α] in
theorem Tbl.mem_insert {t : Tbl α} {k : Nat} {v : α} {e : Nat × α} (h : e ∈ Tbl.insert t k v) : e = (k, v) ∨ e ∈ t := by
  induction t with
  | nil => simpa [Tbl.insert] using h
  | cons f t ih =>
    obtain ⟨j, w⟩ := f
    unfold Tbl.insert at h
    split at h
    · simpa using h
    · split at h
      · rcases List.mem_cons.1 h with h | h
        · exact .inl h
        · exact .inr (List.mem_cons_of_mem _ h)
      · rcases List.mem_cons.1 h with h | h
        · exact .inr (h ▸ List.mem_cons_self)
        · exact (ih h).imp id (List.mem_cons_of_mem _)

theorem Tbl.wf_insert (d : α) (t : Tbl α) (k : Nat) (v : α) (hv : v ≠ d) (h : Tbl.wf d t = true) :
    Tbl.wf d (Tbl.insert t k v) = true := by
  induction t with
  | nil => simp [Tbl.insert, Tbl.wf, hv]
  | cons e t ih =>
    obtain ⟨j, w⟩ := e
    obtain ⟨hw, hlt, ht⟩ := (Tbl.wf_cons d j w t).1 h
    unfold Tbl.insert
    split
    · rename_i hkj
      refine (Tbl.wf_cons d k v _).2 ⟨hv, ?_, h⟩
      intro e he
      rcases List.mem_cons.1 he with he | he
      · simpa [he] using hkj
      · exact Nat.lt_trans hkj (hlt e he)
    · split
      · rename_i hkj
        exact (Tbl.wf_cons d k v _).2 ⟨hv, hkj ▸ hlt, ht⟩
      · rename_i h1 h2
        refine (Tbl.wf_cons d j w _).2 ⟨hw, ?_, ih ht⟩
        intro e he
        rcases Tbl.mem_insert he with he | he
        · simp [he]; omega
        · exact hlt e he

/-- A write keeps the canonical form. -/
theorem Tbl.wf_set (d : α) (t : Tbl α) (k : Nat) (v : α) (h : Tbl.wf d t = true) : Tbl.wf d (Tbl.set d t k v) = true := by
  unfold Tbl.set
  split
  · exact Tbl.wf_erase d t k h
  · exact Tbl.wf_insert d t k v (by assumption) h

theorem Tbl.wf_modify (d : α) (t : Tbl α) (k : Nat) (f : α → α) (h : Tbl.wf d t = true) :
    Tbl.wf d (Tbl.modify d t k f) = true := Tbl.wf_set d t k _ h

theorem Tbl.wf_mapVals (d : α) (f : Nat → α → α) (t : Tbl α) (h : Tbl.wf d t = true) :
    Tbl.wf d (Tbl.mapVals d f t) = true := by
  have key : ∀ t : Tbl α, Tbl.wf d t = true →
      Tbl.wf d (Tbl.mapVals d f t) = true ∧ ∀ k, (∀ e ∈ t, k < e.1) → ∀ e ∈ Tbl.mapVals d f t, k < e.1 := by
    intro t ht
    induction t with
    | nil => exact ⟨rfl, fun k _ e he => absurd he (by simp [Tbl.mapVals])⟩
    | cons e t ih =>
      obtain ⟨j, w⟩ := e
      obtain ⟨_, hlt, ht⟩ := (Tbl.wf_cons d j w t).1 ht
      obtain ⟨iw, im⟩ := ih ht
      have hm : Tbl.mapVals d f ((j, w) :: t) =
          if f j w = d then Tbl.mapVals d f t else (j, f j w) :: Tbl.mapVals d f t := by
        by_cases hd : f j w = d <;> simp [Tbl.mapVals, hd]
      rw [hm]
      split
      · exact ⟨iw, fun k hk => im k fun e he => hk e (List.mem_cons_of_mem _ he)⟩
      · rename_i hd
        refine ⟨(Tbl.wf_cons d j _ _).2 ⟨hd, im j hlt, iw⟩, ?_⟩
        intro k hk e he
        rcases List.mem_cons.1 he with he | he
        · simpa [he] using hk (j, w) List.mem_cons_self
        · exact im k (fun e he => hk e (List.mem_cons_of_mem _ he)) e he
  exact (key t h).1

/-! ### Quadruples -/

omit [DecidableEq α] in
theorem Quad.get_set_self (q : Quad α) (c : Fin 4) (v : α) : Quad.get (Quad.set q c v) c = v := by
  match c with
  | 0 => rfl
  | 1 => rfl
  | 2 => rfl
  | 3 => rfl

omit [DecidableEq α] in
theorem Quad.get_set_other (q : Quad α) {b c : Fin 4} (h : b ≠ c) (v : α) :
    Quad.get (Quad.set q c v) b = Quad.get q b := by
  revert h
  match b, c with
  | 0, 0 => exact fun h => absurd rfl h
  | 1, 1 => exact fun h => absurd rfl h
  | 2, 2 => exact fun h => absurd rfl h
  | 3, 3 => exact fun h => absurd rfl h
  | 0, 1 => exact fun _ => rfl
  | 0, 2 => exact fun _ => rfl
  | 0, 3 => exact fun _ => rfl
  | 1, 0 => exact fun _ => rfl
  | 1, 2 => exact fun _ => rfl
  | 1, 3 => exact fun _ => rfl
  | 2, 0 => exact fun _ => rfl
  | 2, 1 => exact fun _ => rfl
  | 2, 3 => exact fun _ => rfl
  | 3, 0 => exact fun _ => rfl
  | 3, 1 => exact fun _ => rfl
  | 3, 2 => exact fun _ => rfl

end Sys2Proof.Machine
end

