-- ==== Sys2Proof/Laws/Flash.lean ====
section
/-! SUPPORT. Everything that the operations on a flash device do to its contents (19_persistence.md): each keeps the one
canonical form, and each names the pages that it leaves alone. -/

namespace Sys2Proof.Machine

/-- The canonical form of a device's contents: pages rising, none of them blank. -/
def flashWf (f : Tbl FlitData) : Prop := Tbl.wf (BitVec.allOnes 2048) f = true

theorem foldl_keeps {α β : Type} (P : α → Prop) (g : α → β → α) (h : ∀ a b, P a → P (g a b)) :
    ∀ (l : List β) (a : α), P a → P (l.foldl g a)
  | [], _, ha => ha
  | b :: l, a, ha => foldl_keeps P g h l (g a b) (h a b ha)

theorem flashProgram_wf {f : Tbl FlitData} (addr : Nat) (bs : List Byte) (h : flashWf f) :
    flashWf (flashProgram f addr bs) :=
  foldl_keeps flashWf _ (fun _ _ hf => Tbl.wf_modify _ _ _ _ hf) _ _ h

theorem flashErase_wf {f : Tbl FlitData} (addr : Nat) (h : flashWf f) : flashWf (flashErase f addr) :=
  Tbl.wf_filter _ _ _ h

theorem tornErase_wf {ch : Chip} {f : Tbl FlitData} (addr : Nat) (h : flashWf f) : flashWf (tornErase ch f addr) :=
  Tbl.wf_mapVals _ _ _ h

/-- The canonical form of a device after a write of its contents that keeps it. -/
theorem setFlash_wf {s : State} (d e : Fin 2) {f : Tbl FlitData} (hf : flashWf f) (h : flashWf (getFlash s e)) :
    flashWf (getFlash (setFlash s d f) e) := by
  match d, e with
  | 0, 0 => exact hf
  | 0, 1 => exact h
  | 1, 0 => exact h
  | 1, 1 => exact hf

/-- Programming changes only the pages that hold the bytes it programs. -/
theorem flashProgram_other {f : Tbl FlitData} {addr n : Nat} {bs : List Byte}
    (h : ∀ i, i < bs.length → (addr + i) / 256 ≠ n) : flashPage (flashProgram f addr bs) n = flashPage f n := by
  have key : ∀ (l : List (Byte × Nat)) (f : Tbl FlitData), (∀ b ∈ l, (addr + b.2) / 256 ≠ n) →
      flashPage (l.foldl (fun f b =>
        let a := addr + b.2
        let hole := field (8 * (a % 256)) 8 0xFF
        let m := BitVec.ofNat 2048 (2 ^ 2048 - 1 - hole + field (8 * (a % 256)) 8 b.1.toNat)
        Tbl.modify (BitVec.allOnes 2048) f (a / 256) (· &&& m)) f) n = flashPage f n := by
    intro l
    induction l with
    | nil => exact fun _ _ => rfl
    | cons b l ih =>
      intro f hl
      rw [List.foldl_cons, ih _ fun c hc => hl c (List.mem_cons_of_mem _ hc)]
      exact Tbl.get_set_other _ _ (Ne.symm (hl b List.mem_cons_self)) _
  refine key _ f fun b hb => h b.2 ?_
  have := List.mem_zipIdx hb
  omega

/-- An erase leaves the pages of every other sector. -/
theorem flashErase_other {f : Tbl FlitData} {addr n : Nat} (h : n / 256 ≠ addr / 0x10000) :
    flashPage (flashErase f addr) n = flashPage f n := by
  induction f with
  | nil => rfl
  | cons e f ih =>
    obtain ⟨k, v⟩ := e
    by_cases hk : k / 256 = addr / 0x10000
    · have hne : n ≠ k := fun hn => h (hn ▸ hk)
      have : flashErase ((k, v) :: f) addr = flashErase f addr := by simp [flashErase, hk]
      rw [this, ih]
      exact (Tbl.get_cons_other _ hne v f).symm
    · have : flashErase ((k, v) :: f) addr = (k, v) :: flashErase f addr := by simp [flashErase, hk]
      rw [this]
      by_cases hn : n = k
      · subst hn
        exact (Tbl.get_cons_self _ n v _).trans (Tbl.get_cons_self _ n v _).symm
      · exact (Tbl.get_cons_other _ hn v _).trans (ih.trans (Tbl.get_cons_other _ hn v f).symm)

/-- An erase leaves a blank sector. -/
theorem flashErase_blank {f : Tbl FlitData} {addr n : Nat} (h : n / 256 = addr / 0x10000) :
    flashPage (flashErase f addr) n = BitVec.allOnes 2048 := by
  induction f with
  | nil => rfl
  | cons e f ih =>
    obtain ⟨k, v⟩ := e
    by_cases hk : k / 256 = addr / 0x10000
    · have : flashErase ((k, v) :: f) addr = flashErase f addr := by simp [flashErase, hk]
      rw [this, ih]
    · have hne : n ≠ k := fun hn => hk (hn ▸ h)
      have : flashErase ((k, v) :: f) addr = (k, v) :: flashErase f addr := by simp [flashErase, hk]
      rw [this]
      exact (Tbl.get_cons_other _ hne v _).trans ih

end Sys2Proof.Machine
end

