-- ==== Sys2Proof/Laws/Posting.lean ====
section
/-! SUPPORT. What recording an event and raising an attention cause can change: the attention queue and the pending causes,
the recorder, and the queues of the two flash controllers, and nothing else. -/

namespace Sys2Proof.Machine

/-- `b` differs from `a` at most in what posting events and attention causes changes. -/
structure Posts (a b : Chip) : Prop where
  rest : b = { a with ctl := b.ctl, mbs := b.mbs, faults := b.faults, bramblePend := b.bramblePend, recorder := b.recorder
                      xspi0 := b.xspi0, xspi1 := b.xspi1 }
  ctl : b.ctl = { a.ctl with att := b.ctl.att, attNext := b.ctl.attNext }
  faults : b.faults = { a.faults with attPend := b.faults.attPend }
  mbs : ∀ i, getMb b i = { getMb a i with attPend := (getMb b i).attPend }
  xspi0 : b.xspi0 = { a.xspi0 with bus := b.xspi0.bus, queue := b.xspi0.queue, busSince := b.xspi0.busSince }
  xspi1 : b.xspi1 = { a.xspi1 with bus := b.xspi1.bus, queue := b.xspi1.queue, busSince := b.xspi1.busSince }

theorem Posts.refl (a : Chip) : Posts a a := ⟨rfl, rfl, rfl, fun _ => rfl, rfl, rfl⟩

theorem Posts.trans {a b c : Chip} (h : Posts a b) (k : Posts b c) : Posts a c where
  rest := by rw [k.rest, h.rest]
  ctl := by rw [k.ctl, h.ctl]
  faults := by rw [k.faults, h.faults]
  mbs := fun i => by rw [k.mbs i, h.mbs i]
  xspi0 := by rw [k.xspi0, h.xspi0]
  xspi1 := by rw [k.xspi1, h.xspi1]

theorem getMb_setMb (ch : Chip) (j i : Nat) (v : Mailbox) : getMb (setMb ch j v) i = if i = j then v else getMb ch i :=
  Tbl.get_set _ _ _ _ _

theorem Posts.ofAtt (a : Chip) (c : Ctl) (h : c = { a.ctl with att := c.att, attNext := c.attNext }) :
    Posts a { a with ctl := c } := ⟨rfl, h, rfl, fun _ => rfl, rfl, rfl⟩

theorem Posts.ofRecorder (a : Chip) (r : Recorder) : Posts a { a with recorder := r } :=
  ⟨rfl, rfl, rfl, fun _ => rfl, rfl, rfl⟩

theorem attSetPend_posts (ch : Chip) (src v : Nat) : Posts ch (attSetPend ch src v) := by
  unfold attSetPend
  split
  · exact ⟨rfl, rfl, rfl, fun _ => rfl, rfl, rfl⟩
  · split
    · exact ⟨rfl, rfl, rfl, fun _ => rfl, rfl, rfl⟩
    · split
      · exact ⟨rfl, rfl, rfl, fun _ => rfl, rfl, rfl⟩
      · refine ⟨rfl, rfl, rfl, fun i => ?_, rfl, rfl⟩
        simp only [modMb, getMb_setMb]
        split
        · rename_i h; subst h; rfl
        · rfl

theorem Posts.ite {a b c : Chip} (p : Prop) [Decidable p] (h : Posts a b) (k : Posts a c) : Posts a (if p then b else c) := by
  split
  · exact h
  · exact k

theorem Posts.foldl {β : Type} (f : Chip → β → Chip) (h : ∀ c b, Posts c (f c b)) (l : List β) (ch : Chip) :
    Posts ch (l.foldl f ch) := by
  induction l generalizing ch with
  | nil => exact Posts.refl ch
  | cons b l ih => exact (h ch b).trans (ih _)

theorem attPushOne_posts (src : Nat) (ch : Chip) (cause : Nat) : Posts ch (attPushOne src ch cause) := by
  unfold attPushOne
  split
  · exact (attSetPend_posts ch src _).trans (Posts.ofAtt _ _ rfl)
  · exact Posts.refl ch

theorem attPushPage_posts (ch : Chip) (src : Nat) : Posts ch (attPushPage ch src) := by
  unfold attPushPage
  split
  · exact Posts.refl ch
  · exact Posts.foldl _ (attPushOne_posts src) _ ch

/-- Writing the pending causes to the attention queue posts only. -/
theorem attPump_posts (ch : Chip) : Posts ch (attPump ch) := Posts.foldl _ attPushPage_posts _ ch

/-- Raising an attention cause posts only. -/
theorem attRaise_posts (ch : Chip) (src cause : Nat) : Posts ch (attRaise ch src cause) :=
  (attSetPend_posts ch src _).trans (attPump_posts _)

theorem Posts.ofXspi (ch : Chip) (d : Fin 2) (x : Xspi)
    (h : x = { getXspi ch d with bus := x.bus, queue := x.queue, busSince := x.busSince }) : Posts ch (setXspi ch d x) := by
  unfold setXspi
  split
  · rename_i hd; subst hd; exact ⟨rfl, rfl, rfl, fun _ => rfl, h, rfl⟩
  · rename_i hd
    have : getXspi ch d = ch.xspi1 := by simp [getXspi, hd]
    exact ⟨rfl, rfl, rfl, fun _ => rfl, rfl, by rw [this] at h; exact h⟩

theorem xsStart_posts (ch : Chip) (d : Fin 2) : Posts ch (xsStart ch d) := by
  unfold xsStart
  dsimp only
  split
  · exact Posts.refl ch
  · split
    · exact Posts.ofXspi ch d _ rfl
    · exact Posts.refl ch

/-- Requesting a flash operation posts only. -/
theorem xsPush_posts (ch : Chip) (d : Fin 2) (op : FlashOp) : Posts ch (xsPush ch d op) :=
  (Posts.ofXspi ch d _ rfl).trans (xsStart_posts _ d)

theorem xsPushAll_posts (ch : Chip) (op : FlashOp) : Posts ch (xsPushAll ch op) := by
  unfold xsPushAll
  dsimp only
  split <;> split <;>
    first
    | exact (xsPush_posts _ _ _).trans (xsPush_posts _ _ _)
    | exact xsPush_posts _ _ _
    | exact Posts.refl _

theorem recKick_posts (ch : Chip) : Posts ch (recKick ch) := by
  unfold recKick
  extract_lets r flags full c1 r1 pip op c2 c3
  refine Posts.ite _ (Posts.refl ch) ?_
  have h1 : Posts ch c1 := Posts.ite _ ((Posts.ofRecorder ch _).trans (attRaise_posts _ _ _)) (Posts.refl ch)
  have h2 : Posts ch c2 := h1.trans (Posts.ofRecorder c1 _)
  have h3 : Posts ch c3 := Posts.ite _ (h2.trans (xsPush_posts _ _ _)) h2
  exact Posts.ite _ (h3.trans (xsPush_posts _ _ _)) h3

theorem recHand_posts (ch : Chip) : Posts ch (recHand ch) := by
  unfold recHand
  dsimp only
  split
  · exact Posts.refl ch
  · split
    · exact (Posts.ofRecorder ch _).trans (recKick_posts _)
    · exact Posts.ofRecorder ch _

theorem recEnter_posts (ch : Chip) (p : Pip) : Posts ch (recEnter ch p) := by
  unfold recEnter
  extract_lets r since filling c1 c2
  have h1 : Posts ch c1 := Posts.ofRecorder ch _
  have h2 : Posts ch c2 := Posts.ite _ (h1.trans (attRaise_posts _ _ _)) h1
  exact Posts.ite _ (h2.trans (recHand_posts _)) h2

theorem recPip_posts (ch : Chip) (p : Pip) : Posts ch (recPip ch p) := by
  unfold recPip
  extract_lets r same
  refine Posts.ite _ (Posts.refl ch) (Posts.ite _ (Posts.ite _ (Posts.ofRecorder ch _) (Posts.ofRecorder ch _)) ?_)
  split
  · exact Posts.ite _ (Posts.ofRecorder ch _) (recEnter_posts ch p)
  · have h (r0 : Recorder) (lost : Pip) : Posts ch (recEnter { ch with recorder := r0 } lost) :=
      (Posts.ofRecorder ch r0).trans (recEnter_posts _ lost)
    refine Posts.ite _ (recEnter_posts ch p) (Posts.ite _ (Posts.ite _ ?_ ?_) ?_)
    · exact (h _ _).trans (Posts.ofRecorder _ _)
    · exact (h _ _).trans (Posts.ofRecorder _ _)
    · exact (h _ _).trans (recEnter_posts _ _)

/-- Recording an event posts only (R406 to R412). -/
theorem event_posts (ch : Chip) (code sev : Nat) (tv : Option Nat) (fs : List (Nat × Nat)) :
    Posts ch (event ch code sev tv fs) := recPip_posts ch _

theorem eventRaw_posts (ch : Chip) (code sev flags p0 p1 p2 p3 : Nat) :
    Posts ch (eventRaw ch code sev flags p0 p1 p2 p3) := recPip_posts ch _

end Sys2Proof.Machine
end

