-- ==== Sys2Proof/Laws/State.lean ====
section
/-! SUPPORT. One lemma per field per update: what each named write of a part of the state leaves as it was, and the reads of
what it wrote. Each is true by unfolding. -/

namespace Sys2Proof.Machine

variable (ch : Chip)

/-! ### setPort -/

@[simp] theorem setPort_powered (p : Nat) (v : Port) : (setPort ch p v).powered = ch.powered := rfl
@[simp] theorem setPort_dstate (p : Nat) (v : Port) : (setPort ch p v).dstate = ch.dstate := rfl
@[simp] theorem setPort_booted (p : Nat) (v : Port) : (setPort ch p v).booted = ch.booted := rfl
@[simp] theorem setPort_coreMul (p : Nat) (v : Port) : (setPort ch p v).coreMul = ch.coreMul := rfl
@[simp] theorem setPort_cycle (p : Nat) (v : Port) : (setPort ch p v).cycle = ch.cycle := rfl
@[simp] theorem setPort_boots (p : Nat) (v : Port) : (setPort ch p v).boots = ch.boots := rfl
@[simp] theorem setPort_pfail (p : Nat) (v : Port) : (setPort ch p v).pfail = ch.pfail := rfl
@[simp] theorem setPort_clusters (p : Nat) (v : Port) : (setPort ch p v).clusters = ch.clusters := rfl
@[simp] theorem setPort_keys (p : Nat) (v : Port) : (setPort ch p v).keys = ch.keys := rfl
@[simp] theorem setPort_damson (p : Nat) (v : Port) : (setPort ch p v).damson = ch.damson := rfl
@[simp] theorem setPort_lines (p : Nat) (v : Port) : (setPort ch p v).lines = ch.lines := rfl
@[simp] theorem setPort_sweeps (p : Nat) (v : Port) : (setPort ch p v).sweeps = ch.sweeps := rfl
@[simp] theorem setPort_sweepsInv (p : Nat) (v : Port) : (setPort ch p v).sweepsInv = ch.sweepsInv := rfl
@[simp] theorem setPort_ljobs (p : Nat) (v : Port) : (setPort ch p v).ljobs = ch.ljobs := rfl
@[simp] theorem setPort_ranges (p : Nat) (v : Port) : (setPort ch p v).ranges = ch.ranges := rfl
@[simp] theorem setPort_rangeNext (p : Nat) (v : Port) : (setPort ch p v).rangeNext = ch.rangeNext := rfl
@[simp] theorem setPort_fetchQ (p : Nat) (v : Port) : (setPort ch p v).fetchQ = ch.fetchQ := rfl
@[simp] theorem setPort_brambleEn (p : Nat) (v : Port) : (setPort ch p v).brambleEn = ch.brambleEn := rfl
@[simp] theorem setPort_bramblePend (p : Nat) (v : Port) : (setPort ch p v).bramblePend = ch.bramblePend := rfl
@[simp] theorem setPort_cfg (p : Nat) (v : Port) : (setPort ch p v).cfg = ch.cfg := rfl
@[simp] theorem setPort_cfgOld (p : Nat) (v : Port) : (setPort ch p v).cfgOld = ch.cfgOld := rfl
@[simp] theorem setPort_admitGen (p : Nat) (v : Port) : (setPort ch p v).admitGen = ch.admitGen := rfl
@[simp] theorem setPort_oldGen (p : Nat) (v : Port) : (setPort ch p v).oldGen = ch.oldGen := rfl
@[simp] theorem setPort_live2 (p : Nat) (v : Port) : (setPort ch p v).live2 = ch.live2 := rfl
@[simp] theorem setPort_tenants (p : Nat) (v : Port) : (setPort ch p v).tenants = ch.tenants := rfl
@[simp] theorem setPort_mbs (p : Nat) (v : Port) : (setPort ch p v).mbs = ch.mbs := rfl
@[simp] theorem setPort_quince (p : Nat) (v : Port) : (setPort ch p v).quince = ch.quince := rfl
@[simp] theorem setPort_faults (p : Nat) (v : Port) : (setPort ch p v).faults = ch.faults := rfl
@[simp] theorem setPort_recorder (p : Nat) (v : Port) : (setPort ch p v).recorder = ch.recorder := rfl
@[simp] theorem setPort_rng (p : Nat) (v : Port) : (setPort ch p v).rng = ch.rng := rfl
@[simp] theorem setPort_fw (p : Nat) (v : Port) : (setPort ch p v).fw = ch.fw := rfl
@[simp] theorem setPort_xspi0 (p : Nat) (v : Port) : (setPort ch p v).xspi0 = ch.xspi0 := rfl
@[simp] theorem setPort_xspi1 (p : Nat) (v : Port) : (setPort ch p v).xspi1 = ch.xspi1 := rfl
@[simp] theorem setPort_ctl (p : Nat) (v : Port) : (setPort ch p v).ctl = ch.ctl := rfl
@[simp] theorem setPort_flitGap (p : Nat) (v : Port) : (setPort ch p v).flitGap = ch.flitGap := rfl
@[simp] theorem setPort_rngStallMax (p : Nat) (v : Port) : (setPort ch p v).rngStallMax = ch.rngStallMax := rfl
@[simp] theorem setPort_authSince (p : Nat) (v : Port) : (setPort ch p v).authSince = ch.authSince := rfl
@[simp] theorem setPort_tempWarned (p : Nat) (v : Port) : (setPort ch p v).tempWarned = ch.tempWarned := rfl
@[simp] theorem setPort_trippedOnce (p : Nat) (v : Port) : (setPort ch p v).trippedOnce = ch.trippedOnce := rfl
@[simp] theorem setPort_killedAtBoot (p : Nat) (v : Port) : (setPort ch p v).killedAtBoot = ch.killedAtBoot := rfl
@[simp] theorem setPort_admissions (p : Nat) (v : Port) : (setPort ch p v).admissions = ch.admissions := rfl
@[simp] theorem setPort_free (p : Nat) (v : Port) : (setPort ch p v).free = ch.free := rfl

/-! ### setCluster -/

@[simp] theorem setCluster_powered (c : Nat) (v : Cluster) : (setCluster ch c v).powered = ch.powered := rfl
@[simp] theorem setCluster_dstate (c : Nat) (v : Cluster) : (setCluster ch c v).dstate = ch.dstate := rfl
@[simp] theorem setCluster_booted (c : Nat) (v : Cluster) : (setCluster ch c v).booted = ch.booted := rfl
@[simp] theorem setCluster_coreMul (c : Nat) (v : Cluster) : (setCluster ch c v).coreMul = ch.coreMul := rfl
@[simp] theorem setCluster_cycle (c : Nat) (v : Cluster) : (setCluster ch c v).cycle = ch.cycle := rfl
@[simp] theorem setCluster_boots (c : Nat) (v : Cluster) : (setCluster ch c v).boots = ch.boots := rfl
@[simp] theorem setCluster_pfail (c : Nat) (v : Cluster) : (setCluster ch c v).pfail = ch.pfail := rfl
@[simp] theorem setCluster_ports (c : Nat) (v : Cluster) : (setCluster ch c v).ports = ch.ports := rfl
@[simp] theorem setCluster_keys (c : Nat) (v : Cluster) : (setCluster ch c v).keys = ch.keys := rfl
@[simp] theorem setCluster_damson (c : Nat) (v : Cluster) : (setCluster ch c v).damson = ch.damson := rfl
@[simp] theorem setCluster_lines (c : Nat) (v : Cluster) : (setCluster ch c v).lines = ch.lines := rfl
@[simp] theorem setCluster_sweeps (c : Nat) (v : Cluster) : (setCluster ch c v).sweeps = ch.sweeps := rfl
@[simp] theorem setCluster_sweepsInv (c : Nat) (v : Cluster) : (setCluster ch c v).sweepsInv = ch.sweepsInv := rfl
@[simp] theorem setCluster_ljobs (c : Nat) (v : Cluster) : (setCluster ch c v).ljobs = ch.ljobs := rfl
@[simp] theorem setCluster_ranges (c : Nat) (v : Cluster) : (setCluster ch c v).ranges = ch.ranges := rfl
@[simp] theorem setCluster_rangeNext (c : Nat) (v : Cluster) : (setCluster ch c v).rangeNext = ch.rangeNext := rfl
@[simp] theorem setCluster_fetchQ (c : Nat) (v : Cluster) : (setCluster ch c v).fetchQ = ch.fetchQ := rfl
@[simp] theorem setCluster_brambleEn (c : Nat) (v : Cluster) : (setCluster ch c v).brambleEn = ch.brambleEn := rfl
@[simp] theorem setCluster_bramblePend (c : Nat) (v : Cluster) : (setCluster ch c v).bramblePend = ch.bramblePend := rfl
@[simp] theorem setCluster_cfg (c : Nat) (v : Cluster) : (setCluster ch c v).cfg = ch.cfg := rfl
@[simp] theorem setCluster_cfgOld (c : Nat) (v : Cluster) : (setCluster ch c v).cfgOld = ch.cfgOld := rfl
@[simp] theorem setCluster_admitGen (c : Nat) (v : Cluster) : (setCluster ch c v).admitGen = ch.admitGen := rfl
@[simp] theorem setCluster_oldGen (c : Nat) (v : Cluster) : (setCluster ch c v).oldGen = ch.oldGen := rfl
@[simp] theorem setCluster_live2 (c : Nat) (v : Cluster) : (setCluster ch c v).live2 = ch.live2 := rfl
@[simp] theorem setCluster_tenants (c : Nat) (v : Cluster) : (setCluster ch c v).tenants = ch.tenants := rfl
@[simp] theorem setCluster_mbs (c : Nat) (v : Cluster) : (setCluster ch c v).mbs = ch.mbs := rfl
@[simp] theorem setCluster_quince (c : Nat) (v : Cluster) : (setCluster ch c v).quince = ch.quince := rfl
@[simp] theorem setCluster_faults (c : Nat) (v : Cluster) : (setCluster ch c v).faults = ch.faults := rfl
@[simp] theorem setCluster_recorder (c : Nat) (v : Cluster) : (setCluster ch c v).recorder = ch.recorder := rfl
@[simp] theorem setCluster_rng (c : Nat) (v : Cluster) : (setCluster ch c v).rng = ch.rng := rfl
@[simp] theorem setCluster_fw (c : Nat) (v : Cluster) : (setCluster ch c v).fw = ch.fw := rfl
@[simp] theorem setCluster_xspi0 (c : Nat) (v : Cluster) : (setCluster ch c v).xspi0 = ch.xspi0 := rfl
@[simp] theorem setCluster_xspi1 (c : Nat) (v : Cluster) : (setCluster ch c v).xspi1 = ch.xspi1 := rfl
@[simp] theorem setCluster_ctl (c : Nat) (v : Cluster) : (setCluster ch c v).ctl = ch.ctl := rfl
@[simp] theorem setCluster_flitGap (c : Nat) (v : Cluster) : (setCluster ch c v).flitGap = ch.flitGap := rfl
@[simp] theorem setCluster_rngStallMax (c : Nat) (v : Cluster) : (setCluster ch c v).rngStallMax = ch.rngStallMax := rfl
@[simp] theorem setCluster_authSince (c : Nat) (v : Cluster) : (setCluster ch c v).authSince = ch.authSince := rfl
@[simp] theorem setCluster_tempWarned (c : Nat) (v : Cluster) : (setCluster ch c v).tempWarned = ch.tempWarned := rfl
@[simp] theorem setCluster_trippedOnce (c : Nat) (v : Cluster) : (setCluster ch c v).trippedOnce = ch.trippedOnce := rfl
@[simp] theorem setCluster_killedAtBoot (c : Nat) (v : Cluster) : (setCluster ch c v).killedAtBoot = ch.killedAtBoot := rfl
@[simp] theorem setCluster_admissions (c : Nat) (v : Cluster) : (setCluster ch c v).admissions = ch.admissions := rfl
@[simp] theorem setCluster_free (c : Nat) (v : Cluster) : (setCluster ch c v).free = ch.free := rfl

/-! ### setLine -/

@[simp] theorem setLine_powered (p : Nat) (v : LinePort) : (setLine ch p v).powered = ch.powered := rfl
@[simp] theorem setLine_dstate (p : Nat) (v : LinePort) : (setLine ch p v).dstate = ch.dstate := rfl
@[simp] theorem setLine_booted (p : Nat) (v : LinePort) : (setLine ch p v).booted = ch.booted := rfl
@[simp] theorem setLine_coreMul (p : Nat) (v : LinePort) : (setLine ch p v).coreMul = ch.coreMul := rfl
@[simp] theorem setLine_cycle (p : Nat) (v : LinePort) : (setLine ch p v).cycle = ch.cycle := rfl
@[simp] theorem setLine_boots (p : Nat) (v : LinePort) : (setLine ch p v).boots = ch.boots := rfl
@[simp] theorem setLine_pfail (p : Nat) (v : LinePort) : (setLine ch p v).pfail = ch.pfail := rfl
@[simp] theorem setLine_ports (p : Nat) (v : LinePort) : (setLine ch p v).ports = ch.ports := rfl
@[simp] theorem setLine_clusters (p : Nat) (v : LinePort) : (setLine ch p v).clusters = ch.clusters := rfl
@[simp] theorem setLine_keys (p : Nat) (v : LinePort) : (setLine ch p v).keys = ch.keys := rfl
@[simp] theorem setLine_damson (p : Nat) (v : LinePort) : (setLine ch p v).damson = ch.damson := rfl
@[simp] theorem setLine_sweeps (p : Nat) (v : LinePort) : (setLine ch p v).sweeps = ch.sweeps := rfl
@[simp] theorem setLine_sweepsInv (p : Nat) (v : LinePort) : (setLine ch p v).sweepsInv = ch.sweepsInv := rfl
@[simp] theorem setLine_ljobs (p : Nat) (v : LinePort) : (setLine ch p v).ljobs = ch.ljobs := rfl
@[simp] theorem setLine_ranges (p : Nat) (v : LinePort) : (setLine ch p v).ranges = ch.ranges := rfl
@[simp] theorem setLine_rangeNext (p : Nat) (v : LinePort) : (setLine ch p v).rangeNext = ch.rangeNext := rfl
@[simp] theorem setLine_fetchQ (p : Nat) (v : LinePort) : (setLine ch p v).fetchQ = ch.fetchQ := rfl
@[simp] theorem setLine_brambleEn (p : Nat) (v : LinePort) : (setLine ch p v).brambleEn = ch.brambleEn := rfl
@[simp] theorem setLine_bramblePend (p : Nat) (v : LinePort) : (setLine ch p v).bramblePend = ch.bramblePend := rfl
@[simp] theorem setLine_cfg (p : Nat) (v : LinePort) : (setLine ch p v).cfg = ch.cfg := rfl
@[simp] theorem setLine_cfgOld (p : Nat) (v : LinePort) : (setLine ch p v).cfgOld = ch.cfgOld := rfl
@[simp] theorem setLine_admitGen (p : Nat) (v : LinePort) : (setLine ch p v).admitGen = ch.admitGen := rfl
@[simp] theorem setLine_oldGen (p : Nat) (v : LinePort) : (setLine ch p v).oldGen = ch.oldGen := rfl
@[simp] theorem setLine_live2 (p : Nat) (v : LinePort) : (setLine ch p v).live2 = ch.live2 := rfl
@[simp] theorem setLine_tenants (p : Nat) (v : LinePort) : (setLine ch p v).tenants = ch.tenants := rfl
@[simp] theorem setLine_mbs (p : Nat) (v : LinePort) : (setLine ch p v).mbs = ch.mbs := rfl
@[simp] theorem setLine_quince (p : Nat) (v : LinePort) : (setLine ch p v).quince = ch.quince := rfl
@[simp] theorem setLine_faults (p : Nat) (v : LinePort) : (setLine ch p v).faults = ch.faults := rfl
@[simp] theorem setLine_recorder (p : Nat) (v : LinePort) : (setLine ch p v).recorder = ch.recorder := rfl
@[simp] theorem setLine_rng (p : Nat) (v : LinePort) : (setLine ch p v).rng = ch.rng := rfl
@[simp] theorem setLine_fw (p : Nat) (v : LinePort) : (setLine ch p v).fw = ch.fw := rfl
@[simp] theorem setLine_xspi0 (p : Nat) (v : LinePort) : (setLine ch p v).xspi0 = ch.xspi0 := rfl
@[simp] theorem setLine_xspi1 (p : Nat) (v : LinePort) : (setLine ch p v).xspi1 = ch.xspi1 := rfl
@[simp] theorem setLine_ctl (p : Nat) (v : LinePort) : (setLine ch p v).ctl = ch.ctl := rfl
@[simp] theorem setLine_flitGap (p : Nat) (v : LinePort) : (setLine ch p v).flitGap = ch.flitGap := rfl
@[simp] theorem setLine_rngStallMax (p : Nat) (v : LinePort) : (setLine ch p v).rngStallMax = ch.rngStallMax := rfl
@[simp] theorem setLine_authSince (p : Nat) (v : LinePort) : (setLine ch p v).authSince = ch.authSince := rfl
@[simp] theorem setLine_tempWarned (p : Nat) (v : LinePort) : (setLine ch p v).tempWarned = ch.tempWarned := rfl
@[simp] theorem setLine_trippedOnce (p : Nat) (v : LinePort) : (setLine ch p v).trippedOnce = ch.trippedOnce := rfl
@[simp] theorem setLine_killedAtBoot (p : Nat) (v : LinePort) : (setLine ch p v).killedAtBoot = ch.killedAtBoot := rfl
@[simp] theorem setLine_admissions (p : Nat) (v : LinePort) : (setLine ch p v).admissions = ch.admissions := rfl
@[simp] theorem setLine_free (p : Nat) (v : LinePort) : (setLine ch p v).free = ch.free := rfl

/-! ### setMb -/

@[simp] theorem setMb_powered (m : Nat) (v : Mailbox) : (setMb ch m v).powered = ch.powered := rfl
@[simp] theorem setMb_dstate (m : Nat) (v : Mailbox) : (setMb ch m v).dstate = ch.dstate := rfl
@[simp] theorem setMb_booted (m : Nat) (v : Mailbox) : (setMb ch m v).booted = ch.booted := rfl
@[simp] theorem setMb_coreMul (m : Nat) (v : Mailbox) : (setMb ch m v).coreMul = ch.coreMul := rfl
@[simp] theorem setMb_cycle (m : Nat) (v : Mailbox) : (setMb ch m v).cycle = ch.cycle := rfl
@[simp] theorem setMb_boots (m : Nat) (v : Mailbox) : (setMb ch m v).boots = ch.boots := rfl
@[simp] theorem setMb_pfail (m : Nat) (v : Mailbox) : (setMb ch m v).pfail = ch.pfail := rfl
@[simp] theorem setMb_ports (m : Nat) (v : Mailbox) : (setMb ch m v).ports = ch.ports := rfl
@[simp] theorem setMb_clusters (m : Nat) (v : Mailbox) : (setMb ch m v).clusters = ch.clusters := rfl
@[simp] theorem setMb_keys (m : Nat) (v : Mailbox) : (setMb ch m v).keys = ch.keys := rfl
@[simp] theorem setMb_damson (m : Nat) (v : Mailbox) : (setMb ch m v).damson = ch.damson := rfl
@[simp] theorem setMb_lines (m : Nat) (v : Mailbox) : (setMb ch m v).lines = ch.lines := rfl
@[simp] theorem setMb_sweeps (m : Nat) (v : Mailbox) : (setMb ch m v).sweeps = ch.sweeps := rfl
@[simp] theorem setMb_sweepsInv (m : Nat) (v : Mailbox) : (setMb ch m v).sweepsInv = ch.sweepsInv := rfl
@[simp] theorem setMb_ljobs (m : Nat) (v : Mailbox) : (setMb ch m v).ljobs = ch.ljobs := rfl
@[simp] theorem setMb_ranges (m : Nat) (v : Mailbox) : (setMb ch m v).ranges = ch.ranges := rfl
@[simp] theorem setMb_rangeNext (m : Nat) (v : Mailbox) : (setMb ch m v).rangeNext = ch.rangeNext := rfl
@[simp] theorem setMb_fetchQ (m : Nat) (v : Mailbox) : (setMb ch m v).fetchQ = ch.fetchQ := rfl
@[simp] theorem setMb_brambleEn (m : Nat) (v : Mailbox) : (setMb ch m v).brambleEn = ch.brambleEn := rfl
@[simp] theorem setMb_bramblePend (m : Nat) (v : Mailbox) : (setMb ch m v).bramblePend = ch.bramblePend := rfl
@[simp] theorem setMb_cfg (m : Nat) (v : Mailbox) : (setMb ch m v).cfg = ch.cfg := rfl
@[simp] theorem setMb_cfgOld (m : Nat) (v : Mailbox) : (setMb ch m v).cfgOld = ch.cfgOld := rfl
@[simp] theorem setMb_admitGen (m : Nat) (v : Mailbox) : (setMb ch m v).admitGen = ch.admitGen := rfl
@[simp] theorem setMb_oldGen (m : Nat) (v : Mailbox) : (setMb ch m v).oldGen = ch.oldGen := rfl
@[simp] theorem setMb_live2 (m : Nat) (v : Mailbox) : (setMb ch m v).live2 = ch.live2 := rfl
@[simp] theorem setMb_tenants (m : Nat) (v : Mailbox) : (setMb ch m v).tenants = ch.tenants := rfl
@[simp] theorem setMb_quince (m : Nat) (v : Mailbox) : (setMb ch m v).quince = ch.quince := rfl
@[simp] theorem setMb_faults (m : Nat) (v : Mailbox) : (setMb ch m v).faults = ch.faults := rfl
@[simp] theorem setMb_recorder (m : Nat) (v : Mailbox) : (setMb ch m v).recorder = ch.recorder := rfl
@[simp] theorem setMb_rng (m : Nat) (v : Mailbox) : (setMb ch m v).rng = ch.rng := rfl
@[simp] theorem setMb_fw (m : Nat) (v : Mailbox) : (setMb ch m v).fw = ch.fw := rfl
@[simp] theorem setMb_xspi0 (m : Nat) (v : Mailbox) : (setMb ch m v).xspi0 = ch.xspi0 := rfl
@[simp] theorem setMb_xspi1 (m : Nat) (v : Mailbox) : (setMb ch m v).xspi1 = ch.xspi1 := rfl
@[simp] theorem setMb_ctl (m : Nat) (v : Mailbox) : (setMb ch m v).ctl = ch.ctl := rfl
@[simp] theorem setMb_flitGap (m : Nat) (v : Mailbox) : (setMb ch m v).flitGap = ch.flitGap := rfl
@[simp] theorem setMb_rngStallMax (m : Nat) (v : Mailbox) : (setMb ch m v).rngStallMax = ch.rngStallMax := rfl
@[simp] theorem setMb_authSince (m : Nat) (v : Mailbox) : (setMb ch m v).authSince = ch.authSince := rfl
@[simp] theorem setMb_tempWarned (m : Nat) (v : Mailbox) : (setMb ch m v).tempWarned = ch.tempWarned := rfl
@[simp] theorem setMb_trippedOnce (m : Nat) (v : Mailbox) : (setMb ch m v).trippedOnce = ch.trippedOnce := rfl
@[simp] theorem setMb_killedAtBoot (m : Nat) (v : Mailbox) : (setMb ch m v).killedAtBoot = ch.killedAtBoot := rfl
@[simp] theorem setMb_admissions (m : Nat) (v : Mailbox) : (setMb ch m v).admissions = ch.admissions := rfl
@[simp] theorem setMb_free (m : Nat) (v : Mailbox) : (setMb ch m v).free = ch.free := rfl

/-! ### setTenant -/

@[simp] theorem setTenant_powered (t : Nat) (v : Tenant) : (setTenant ch t v).powered = ch.powered := rfl
@[simp] theorem setTenant_dstate (t : Nat) (v : Tenant) : (setTenant ch t v).dstate = ch.dstate := rfl
@[simp] theorem setTenant_booted (t : Nat) (v : Tenant) : (setTenant ch t v).booted = ch.booted := rfl
@[simp] theorem setTenant_coreMul (t : Nat) (v : Tenant) : (setTenant ch t v).coreMul = ch.coreMul := rfl
@[simp] theorem setTenant_cycle (t : Nat) (v : Tenant) : (setTenant ch t v).cycle = ch.cycle := rfl
@[simp] theorem setTenant_boots (t : Nat) (v : Tenant) : (setTenant ch t v).boots = ch.boots := rfl
@[simp] theorem setTenant_pfail (t : Nat) (v : Tenant) : (setTenant ch t v).pfail = ch.pfail := rfl
@[simp] theorem setTenant_ports (t : Nat) (v : Tenant) : (setTenant ch t v).ports = ch.ports := rfl
@[simp] theorem setTenant_clusters (t : Nat) (v : Tenant) : (setTenant ch t v).clusters = ch.clusters := rfl
@[simp] theorem setTenant_keys (t : Nat) (v : Tenant) : (setTenant ch t v).keys = ch.keys := rfl
@[simp] theorem setTenant_damson (t : Nat) (v : Tenant) : (setTenant ch t v).damson = ch.damson := rfl
@[simp] theorem setTenant_lines (t : Nat) (v : Tenant) : (setTenant ch t v).lines = ch.lines := rfl
@[simp] theorem setTenant_sweeps (t : Nat) (v : Tenant) : (setTenant ch t v).sweeps = ch.sweeps := rfl
@[simp] theorem setTenant_sweepsInv (t : Nat) (v : Tenant) : (setTenant ch t v).sweepsInv = ch.sweepsInv := rfl
@[simp] theorem setTenant_ljobs (t : Nat) (v : Tenant) : (setTenant ch t v).ljobs = ch.ljobs := rfl
@[simp] theorem setTenant_ranges (t : Nat) (v : Tenant) : (setTenant ch t v).ranges = ch.ranges := rfl
@[simp] theorem setTenant_rangeNext (t : Nat) (v : Tenant) : (setTenant ch t v).rangeNext = ch.rangeNext := rfl
@[simp] theorem setTenant_fetchQ (t : Nat) (v : Tenant) : (setTenant ch t v).fetchQ = ch.fetchQ := rfl
@[simp] theorem setTenant_brambleEn (t : Nat) (v : Tenant) : (setTenant ch t v).brambleEn = ch.brambleEn := rfl
@[simp] theorem setTenant_bramblePend (t : Nat) (v : Tenant) : (setTenant ch t v).bramblePend = ch.bramblePend := rfl
@[simp] theorem setTenant_cfg (t : Nat) (v : Tenant) : (setTenant ch t v).cfg = ch.cfg := rfl
@[simp] theorem setTenant_cfgOld (t : Nat) (v : Tenant) : (setTenant ch t v).cfgOld = ch.cfgOld := rfl
@[simp] theorem setTenant_admitGen (t : Nat) (v : Tenant) : (setTenant ch t v).admitGen = ch.admitGen := rfl
@[simp] theorem setTenant_oldGen (t : Nat) (v : Tenant) : (setTenant ch t v).oldGen = ch.oldGen := rfl
@[simp] theorem setTenant_live2 (t : Nat) (v : Tenant) : (setTenant ch t v).live2 = ch.live2 := rfl
@[simp] theorem setTenant_mbs (t : Nat) (v : Tenant) : (setTenant ch t v).mbs = ch.mbs := rfl
@[simp] theorem setTenant_quince (t : Nat) (v : Tenant) : (setTenant ch t v).quince = ch.quince := rfl
@[simp] theorem setTenant_faults (t : Nat) (v : Tenant) : (setTenant ch t v).faults = ch.faults := rfl
@[simp] theorem setTenant_recorder (t : Nat) (v : Tenant) : (setTenant ch t v).recorder = ch.recorder := rfl
@[simp] theorem setTenant_rng (t : Nat) (v : Tenant) : (setTenant ch t v).rng = ch.rng := rfl
@[simp] theorem setTenant_fw (t : Nat) (v : Tenant) : (setTenant ch t v).fw = ch.fw := rfl
@[simp] theorem setTenant_xspi0 (t : Nat) (v : Tenant) : (setTenant ch t v).xspi0 = ch.xspi0 := rfl
@[simp] theorem setTenant_xspi1 (t : Nat) (v : Tenant) : (setTenant ch t v).xspi1 = ch.xspi1 := rfl
@[simp] theorem setTenant_ctl (t : Nat) (v : Tenant) : (setTenant ch t v).ctl = ch.ctl := rfl
@[simp] theorem setTenant_flitGap (t : Nat) (v : Tenant) : (setTenant ch t v).flitGap = ch.flitGap := rfl
@[simp] theorem setTenant_rngStallMax (t : Nat) (v : Tenant) : (setTenant ch t v).rngStallMax = ch.rngStallMax := rfl
@[simp] theorem setTenant_authSince (t : Nat) (v : Tenant) : (setTenant ch t v).authSince = ch.authSince := rfl
@[simp] theorem setTenant_tempWarned (t : Nat) (v : Tenant) : (setTenant ch t v).tempWarned = ch.tempWarned := rfl
@[simp] theorem setTenant_trippedOnce (t : Nat) (v : Tenant) : (setTenant ch t v).trippedOnce = ch.trippedOnce := rfl
@[simp] theorem setTenant_killedAtBoot (t : Nat) (v : Tenant) : (setTenant ch t v).killedAtBoot = ch.killedAtBoot := rfl
@[simp] theorem setTenant_admissions (t : Nat) (v : Tenant) : (setTenant ch t v).admissions = ch.admissions := rfl
@[simp] theorem setTenant_free (t : Nat) (v : Tenant) : (setTenant ch t v).free = ch.free := rfl

/-! ### setRange -/

@[simp] theorem setRange_powered (j : Nat) (v : Option Range) : (setRange ch j v).powered = ch.powered := rfl
@[simp] theorem setRange_dstate (j : Nat) (v : Option Range) : (setRange ch j v).dstate = ch.dstate := rfl
@[simp] theorem setRange_booted (j : Nat) (v : Option Range) : (setRange ch j v).booted = ch.booted := rfl
@[simp] theorem setRange_coreMul (j : Nat) (v : Option Range) : (setRange ch j v).coreMul = ch.coreMul := rfl
@[simp] theorem setRange_cycle (j : Nat) (v : Option Range) : (setRange ch j v).cycle = ch.cycle := rfl
@[simp] theorem setRange_boots (j : Nat) (v : Option Range) : (setRange ch j v).boots = ch.boots := rfl
@[simp] theorem setRange_pfail (j : Nat) (v : Option Range) : (setRange ch j v).pfail = ch.pfail := rfl
@[simp] theorem setRange_ports (j : Nat) (v : Option Range) : (setRange ch j v).ports = ch.ports := rfl
@[simp] theorem setRange_clusters (j : Nat) (v : Option Range) : (setRange ch j v).clusters = ch.clusters := rfl
@[simp] theorem setRange_keys (j : Nat) (v : Option Range) : (setRange ch j v).keys = ch.keys := rfl
@[simp] theorem setRange_damson (j : Nat) (v : Option Range) : (setRange ch j v).damson = ch.damson := rfl
@[simp] theorem setRange_lines (j : Nat) (v : Option Range) : (setRange ch j v).lines = ch.lines := rfl
@[simp] theorem setRange_sweeps (j : Nat) (v : Option Range) : (setRange ch j v).sweeps = ch.sweeps := rfl
@[simp] theorem setRange_sweepsInv (j : Nat) (v : Option Range) : (setRange ch j v).sweepsInv = ch.sweepsInv := rfl
@[simp] theorem setRange_ljobs (j : Nat) (v : Option Range) : (setRange ch j v).ljobs = ch.ljobs := rfl
@[simp] theorem setRange_rangeNext (j : Nat) (v : Option Range) : (setRange ch j v).rangeNext = ch.rangeNext := rfl
@[simp] theorem setRange_fetchQ (j : Nat) (v : Option Range) : (setRange ch j v).fetchQ = ch.fetchQ := rfl
@[simp] theorem setRange_brambleEn (j : Nat) (v : Option Range) : (setRange ch j v).brambleEn = ch.brambleEn := rfl
@[simp] theorem setRange_bramblePend (j : Nat) (v : Option Range) : (setRange ch j v).bramblePend = ch.bramblePend := rfl
@[simp] theorem setRange_cfg (j : Nat) (v : Option Range) : (setRange ch j v).cfg = ch.cfg := rfl
@[simp] theorem setRange_cfgOld (j : Nat) (v : Option Range) : (setRange ch j v).cfgOld = ch.cfgOld := rfl
@[simp] theorem setRange_admitGen (j : Nat) (v : Option Range) : (setRange ch j v).admitGen = ch.admitGen := rfl
@[simp] theorem setRange_oldGen (j : Nat) (v : Option Range) : (setRange ch j v).oldGen = ch.oldGen := rfl
@[simp] theorem setRange_live2 (j : Nat) (v : Option Range) : (setRange ch j v).live2 = ch.live2 := rfl
@[simp] theorem setRange_tenants (j : Nat) (v : Option Range) : (setRange ch j v).tenants = ch.tenants := rfl
@[simp] theorem setRange_mbs (j : Nat) (v : Option Range) : (setRange ch j v).mbs = ch.mbs := rfl
@[simp] theorem setRange_quince (j : Nat) (v : Option Range) : (setRange ch j v).quince = ch.quince := rfl
@[simp] theorem setRange_faults (j : Nat) (v : Option Range) : (setRange ch j v).faults = ch.faults := rfl
@[simp] theorem setRange_recorder (j : Nat) (v : Option Range) : (setRange ch j v).recorder = ch.recorder := rfl
@[simp] theorem setRange_rng (j : Nat) (v : Option Range) : (setRange ch j v).rng = ch.rng := rfl
@[simp] theorem setRange_fw (j : Nat) (v : Option Range) : (setRange ch j v).fw = ch.fw := rfl
@[simp] theorem setRange_xspi0 (j : Nat) (v : Option Range) : (setRange ch j v).xspi0 = ch.xspi0 := rfl
@[simp] theorem setRange_xspi1 (j : Nat) (v : Option Range) : (setRange ch j v).xspi1 = ch.xspi1 := rfl
@[simp] theorem setRange_ctl (j : Nat) (v : Option Range) : (setRange ch j v).ctl = ch.ctl := rfl
@[simp] theorem setRange_flitGap (j : Nat) (v : Option Range) : (setRange ch j v).flitGap = ch.flitGap := rfl
@[simp] theorem setRange_rngStallMax (j : Nat) (v : Option Range) : (setRange ch j v).rngStallMax = ch.rngStallMax := rfl
@[simp] theorem setRange_authSince (j : Nat) (v : Option Range) : (setRange ch j v).authSince = ch.authSince := rfl
@[simp] theorem setRange_tempWarned (j : Nat) (v : Option Range) : (setRange ch j v).tempWarned = ch.tempWarned := rfl
@[simp] theorem setRange_trippedOnce (j : Nat) (v : Option Range) : (setRange ch j v).trippedOnce = ch.trippedOnce := rfl
@[simp] theorem setRange_killedAtBoot (j : Nat) (v : Option Range) : (setRange ch j v).killedAtBoot = ch.killedAtBoot := rfl
@[simp] theorem setRange_admissions (j : Nat) (v : Option Range) : (setRange ch j v).admissions = ch.admissions := rfl
@[simp] theorem setRange_free (j : Nat) (v : Option Range) : (setRange ch j v).free = ch.free := rfl

/-! ### setLjob -/

@[simp] theorem setLjob_powered (j : Nat) (v : Option LineJob) : (setLjob ch j v).powered = ch.powered := rfl
@[simp] theorem setLjob_dstate (j : Nat) (v : Option LineJob) : (setLjob ch j v).dstate = ch.dstate := rfl
@[simp] theorem setLjob_booted (j : Nat) (v : Option LineJob) : (setLjob ch j v).booted = ch.booted := rfl
@[simp] theorem setLjob_coreMul (j : Nat) (v : Option LineJob) : (setLjob ch j v).coreMul = ch.coreMul := rfl
@[simp] theorem setLjob_cycle (j : Nat) (v : Option LineJob) : (setLjob ch j v).cycle = ch.cycle := rfl
@[simp] theorem setLjob_boots (j : Nat) (v : Option LineJob) : (setLjob ch j v).boots = ch.boots := rfl
@[simp] theorem setLjob_pfail (j : Nat) (v : Option LineJob) : (setLjob ch j v).pfail = ch.pfail := rfl
@[simp] theorem setLjob_ports (j : Nat) (v : Option LineJob) : (setLjob ch j v).ports = ch.ports := rfl
@[simp] theorem setLjob_clusters (j : Nat) (v : Option LineJob) : (setLjob ch j v).clusters = ch.clusters := rfl
@[simp] theorem setLjob_keys (j : Nat) (v : Option LineJob) : (setLjob ch j v).keys = ch.keys := rfl
@[simp] theorem setLjob_damson (j : Nat) (v : Option LineJob) : (setLjob ch j v).damson = ch.damson := rfl
@[simp] theorem setLjob_lines (j : Nat) (v : Option LineJob) : (setLjob ch j v).lines = ch.lines := rfl
@[simp] theorem setLjob_sweeps (j : Nat) (v : Option LineJob) : (setLjob ch j v).sweeps = ch.sweeps := rfl
@[simp] theorem setLjob_sweepsInv (j : Nat) (v : Option LineJob) : (setLjob ch j v).sweepsInv = ch.sweepsInv := rfl
@[simp] theorem setLjob_ranges (j : Nat) (v : Option LineJob) : (setLjob ch j v).ranges = ch.ranges := rfl
@[simp] theorem setLjob_rangeNext (j : Nat) (v : Option LineJob) : (setLjob ch j v).rangeNext = ch.rangeNext := rfl
@[simp] theorem setLjob_fetchQ (j : Nat) (v : Option LineJob) : (setLjob ch j v).fetchQ = ch.fetchQ := rfl
@[simp] theorem setLjob_brambleEn (j : Nat) (v : Option LineJob) : (setLjob ch j v).brambleEn = ch.brambleEn := rfl
@[simp] theorem setLjob_bramblePend (j : Nat) (v : Option LineJob) : (setLjob ch j v).bramblePend = ch.bramblePend := rfl
@[simp] theorem setLjob_cfg (j : Nat) (v : Option LineJob) : (setLjob ch j v).cfg = ch.cfg := rfl
@[simp] theorem setLjob_cfgOld (j : Nat) (v : Option LineJob) : (setLjob ch j v).cfgOld = ch.cfgOld := rfl
@[simp] theorem setLjob_admitGen (j : Nat) (v : Option LineJob) : (setLjob ch j v).admitGen = ch.admitGen := rfl
@[simp] theorem setLjob_oldGen (j : Nat) (v : Option LineJob) : (setLjob ch j v).oldGen = ch.oldGen := rfl
@[simp] theorem setLjob_live2 (j : Nat) (v : Option LineJob) : (setLjob ch j v).live2 = ch.live2 := rfl
@[simp] theorem setLjob_tenants (j : Nat) (v : Option LineJob) : (setLjob ch j v).tenants = ch.tenants := rfl
@[simp] theorem setLjob_mbs (j : Nat) (v : Option LineJob) : (setLjob ch j v).mbs = ch.mbs := rfl
@[simp] theorem setLjob_quince (j : Nat) (v : Option LineJob) : (setLjob ch j v).quince = ch.quince := rfl
@[simp] theorem setLjob_faults (j : Nat) (v : Option LineJob) : (setLjob ch j v).faults = ch.faults := rfl
@[simp] theorem setLjob_recorder (j : Nat) (v : Option LineJob) : (setLjob ch j v).recorder = ch.recorder := rfl
@[simp] theorem setLjob_rng (j : Nat) (v : Option LineJob) : (setLjob ch j v).rng = ch.rng := rfl
@[simp] theorem setLjob_fw (j : Nat) (v : Option LineJob) : (setLjob ch j v).fw = ch.fw := rfl
@[simp] theorem setLjob_xspi0 (j : Nat) (v : Option LineJob) : (setLjob ch j v).xspi0 = ch.xspi0 := rfl
@[simp] theorem setLjob_xspi1 (j : Nat) (v : Option LineJob) : (setLjob ch j v).xspi1 = ch.xspi1 := rfl
@[simp] theorem setLjob_ctl (j : Nat) (v : Option LineJob) : (setLjob ch j v).ctl = ch.ctl := rfl
@[simp] theorem setLjob_flitGap (j : Nat) (v : Option LineJob) : (setLjob ch j v).flitGap = ch.flitGap := rfl
@[simp] theorem setLjob_rngStallMax (j : Nat) (v : Option LineJob) : (setLjob ch j v).rngStallMax = ch.rngStallMax := rfl
@[simp] theorem setLjob_authSince (j : Nat) (v : Option LineJob) : (setLjob ch j v).authSince = ch.authSince := rfl
@[simp] theorem setLjob_tempWarned (j : Nat) (v : Option LineJob) : (setLjob ch j v).tempWarned = ch.tempWarned := rfl
@[simp] theorem setLjob_trippedOnce (j : Nat) (v : Option LineJob) : (setLjob ch j v).trippedOnce = ch.trippedOnce := rfl
@[simp] theorem setLjob_killedAtBoot (j : Nat) (v : Option LineJob) : (setLjob ch j v).killedAtBoot = ch.killedAtBoot := rfl
@[simp] theorem setLjob_admissions (j : Nat) (v : Option LineJob) : (setLjob ch j v).admissions = ch.admissions := rfl
@[simp] theorem setLjob_free (j : Nat) (v : Option LineJob) : (setLjob ch j v).free = ch.free := rfl

/-! ### setSweep -/

@[simp] theorem setSweep_powered (r : Nat) (v : Sweep) : (setSweep ch r v).powered = ch.powered := rfl
@[simp] theorem setSweep_dstate (r : Nat) (v : Sweep) : (setSweep ch r v).dstate = ch.dstate := rfl
@[simp] theorem setSweep_booted (r : Nat) (v : Sweep) : (setSweep ch r v).booted = ch.booted := rfl
@[simp] theorem setSweep_coreMul (r : Nat) (v : Sweep) : (setSweep ch r v).coreMul = ch.coreMul := rfl
@[simp] theorem setSweep_cycle (r : Nat) (v : Sweep) : (setSweep ch r v).cycle = ch.cycle := rfl
@[simp] theorem setSweep_boots (r : Nat) (v : Sweep) : (setSweep ch r v).boots = ch.boots := rfl
@[simp] theorem setSweep_pfail (r : Nat) (v : Sweep) : (setSweep ch r v).pfail = ch.pfail := rfl
@[simp] theorem setSweep_ports (r : Nat) (v : Sweep) : (setSweep ch r v).ports = ch.ports := rfl
@[simp] theorem setSweep_clusters (r : Nat) (v : Sweep) : (setSweep ch r v).clusters = ch.clusters := rfl
@[simp] theorem setSweep_keys (r : Nat) (v : Sweep) : (setSweep ch r v).keys = ch.keys := rfl
@[simp] theorem setSweep_damson (r : Nat) (v : Sweep) : (setSweep ch r v).damson = ch.damson := rfl
@[simp] theorem setSweep_lines (r : Nat) (v : Sweep) : (setSweep ch r v).lines = ch.lines := rfl
@[simp] theorem setSweep_ljobs (r : Nat) (v : Sweep) : (setSweep ch r v).ljobs = ch.ljobs := rfl
@[simp] theorem setSweep_ranges (r : Nat) (v : Sweep) : (setSweep ch r v).ranges = ch.ranges := rfl
@[simp] theorem setSweep_rangeNext (r : Nat) (v : Sweep) : (setSweep ch r v).rangeNext = ch.rangeNext := rfl
@[simp] theorem setSweep_fetchQ (r : Nat) (v : Sweep) : (setSweep ch r v).fetchQ = ch.fetchQ := rfl
@[simp] theorem setSweep_brambleEn (r : Nat) (v : Sweep) : (setSweep ch r v).brambleEn = ch.brambleEn := rfl
@[simp] theorem setSweep_bramblePend (r : Nat) (v : Sweep) : (setSweep ch r v).bramblePend = ch.bramblePend := rfl
@[simp] theorem setSweep_cfg (r : Nat) (v : Sweep) : (setSweep ch r v).cfg = ch.cfg := rfl
@[simp] theorem setSweep_cfgOld (r : Nat) (v : Sweep) : (setSweep ch r v).cfgOld = ch.cfgOld := rfl
@[simp] theorem setSweep_admitGen (r : Nat) (v : Sweep) : (setSweep ch r v).admitGen = ch.admitGen := rfl
@[simp] theorem setSweep_oldGen (r : Nat) (v : Sweep) : (setSweep ch r v).oldGen = ch.oldGen := rfl
@[simp] theorem setSweep_live2 (r : Nat) (v : Sweep) : (setSweep ch r v).live2 = ch.live2 := rfl
@[simp] theorem setSweep_tenants (r : Nat) (v : Sweep) : (setSweep ch r v).tenants = ch.tenants := rfl
@[simp] theorem setSweep_mbs (r : Nat) (v : Sweep) : (setSweep ch r v).mbs = ch.mbs := rfl
@[simp] theorem setSweep_quince (r : Nat) (v : Sweep) : (setSweep ch r v).quince = ch.quince := rfl
@[simp] theorem setSweep_faults (r : Nat) (v : Sweep) : (setSweep ch r v).faults = ch.faults := rfl
@[simp] theorem setSweep_recorder (r : Nat) (v : Sweep) : (setSweep ch r v).recorder = ch.recorder := rfl
@[simp] theorem setSweep_rng (r : Nat) (v : Sweep) : (setSweep ch r v).rng = ch.rng := rfl
@[simp] theorem setSweep_fw (r : Nat) (v : Sweep) : (setSweep ch r v).fw = ch.fw := rfl
@[simp] theorem setSweep_xspi0 (r : Nat) (v : Sweep) : (setSweep ch r v).xspi0 = ch.xspi0 := rfl
@[simp] theorem setSweep_xspi1 (r : Nat) (v : Sweep) : (setSweep ch r v).xspi1 = ch.xspi1 := rfl
@[simp] theorem setSweep_ctl (r : Nat) (v : Sweep) : (setSweep ch r v).ctl = ch.ctl := rfl
@[simp] theorem setSweep_flitGap (r : Nat) (v : Sweep) : (setSweep ch r v).flitGap = ch.flitGap := rfl
@[simp] theorem setSweep_rngStallMax (r : Nat) (v : Sweep) : (setSweep ch r v).rngStallMax = ch.rngStallMax := rfl
@[simp] theorem setSweep_authSince (r : Nat) (v : Sweep) : (setSweep ch r v).authSince = ch.authSince := rfl
@[simp] theorem setSweep_tempWarned (r : Nat) (v : Sweep) : (setSweep ch r v).tempWarned = ch.tempWarned := rfl
@[simp] theorem setSweep_trippedOnce (r : Nat) (v : Sweep) : (setSweep ch r v).trippedOnce = ch.trippedOnce := rfl
@[simp] theorem setSweep_killedAtBoot (r : Nat) (v : Sweep) : (setSweep ch r v).killedAtBoot = ch.killedAtBoot := rfl
@[simp] theorem setSweep_admissions (r : Nat) (v : Sweep) : (setSweep ch r v).admissions = ch.admissions := rfl
@[simp] theorem setSweep_free (r : Nat) (v : Sweep) : (setSweep ch r v).free = ch.free := rfl

/-! ### setDesc -/

@[simp] theorem setDesc_powered (k : Nat) (d : BitVec 256) : (setDesc ch k d).powered = ch.powered := rfl
@[simp] theorem setDesc_dstate (k : Nat) (d : BitVec 256) : (setDesc ch k d).dstate = ch.dstate := rfl
@[simp] theorem setDesc_booted (k : Nat) (d : BitVec 256) : (setDesc ch k d).booted = ch.booted := rfl
@[simp] theorem setDesc_coreMul (k : Nat) (d : BitVec 256) : (setDesc ch k d).coreMul = ch.coreMul := rfl
@[simp] theorem setDesc_cycle (k : Nat) (d : BitVec 256) : (setDesc ch k d).cycle = ch.cycle := rfl
@[simp] theorem setDesc_boots (k : Nat) (d : BitVec 256) : (setDesc ch k d).boots = ch.boots := rfl
@[simp] theorem setDesc_pfail (k : Nat) (d : BitVec 256) : (setDesc ch k d).pfail = ch.pfail := rfl
@[simp] theorem setDesc_ports (k : Nat) (d : BitVec 256) : (setDesc ch k d).ports = ch.ports := rfl
@[simp] theorem setDesc_clusters (k : Nat) (d : BitVec 256) : (setDesc ch k d).clusters = ch.clusters := rfl
@[simp] theorem setDesc_damson (k : Nat) (d : BitVec 256) : (setDesc ch k d).damson = ch.damson := rfl
@[simp] theorem setDesc_lines (k : Nat) (d : BitVec 256) : (setDesc ch k d).lines = ch.lines := rfl
@[simp] theorem setDesc_sweeps (k : Nat) (d : BitVec 256) : (setDesc ch k d).sweeps = ch.sweeps := rfl
@[simp] theorem setDesc_sweepsInv (k : Nat) (d : BitVec 256) : (setDesc ch k d).sweepsInv = ch.sweepsInv := rfl
@[simp] theorem setDesc_ljobs (k : Nat) (d : BitVec 256) : (setDesc ch k d).ljobs = ch.ljobs := rfl
@[simp] theorem setDesc_ranges (k : Nat) (d : BitVec 256) : (setDesc ch k d).ranges = ch.ranges := rfl
@[simp] theorem setDesc_rangeNext (k : Nat) (d : BitVec 256) : (setDesc ch k d).rangeNext = ch.rangeNext := rfl
@[simp] theorem setDesc_fetchQ (k : Nat) (d : BitVec 256) : (setDesc ch k d).fetchQ = ch.fetchQ := rfl
@[simp] theorem setDesc_brambleEn (k : Nat) (d : BitVec 256) : (setDesc ch k d).brambleEn = ch.brambleEn := rfl
@[simp] theorem setDesc_bramblePend (k : Nat) (d : BitVec 256) : (setDesc ch k d).bramblePend = ch.bramblePend := rfl
@[simp] theorem setDesc_cfg (k : Nat) (d : BitVec 256) : (setDesc ch k d).cfg = ch.cfg := rfl
@[simp] theorem setDesc_cfgOld (k : Nat) (d : BitVec 256) : (setDesc ch k d).cfgOld = ch.cfgOld := rfl
@[simp] theorem setDesc_admitGen (k : Nat) (d : BitVec 256) : (setDesc ch k d).admitGen = ch.admitGen := rfl
@[simp] theorem setDesc_oldGen (k : Nat) (d : BitVec 256) : (setDesc ch k d).oldGen = ch.oldGen := rfl
@[simp] theorem setDesc_live2 (k : Nat) (d : BitVec 256) : (setDesc ch k d).live2 = ch.live2 := rfl
@[simp] theorem setDesc_tenants (k : Nat) (d : BitVec 256) : (setDesc ch k d).tenants = ch.tenants := rfl
@[simp] theorem setDesc_mbs (k : Nat) (d : BitVec 256) : (setDesc ch k d).mbs = ch.mbs := rfl
@[simp] theorem setDesc_quince (k : Nat) (d : BitVec 256) : (setDesc ch k d).quince = ch.quince := rfl
@[simp] theorem setDesc_faults (k : Nat) (d : BitVec 256) : (setDesc ch k d).faults = ch.faults := rfl
@[simp] theorem setDesc_recorder (k : Nat) (d : BitVec 256) : (setDesc ch k d).recorder = ch.recorder := rfl
@[simp] theorem setDesc_rng (k : Nat) (d : BitVec 256) : (setDesc ch k d).rng = ch.rng := rfl
@[simp] theorem setDesc_fw (k : Nat) (d : BitVec 256) : (setDesc ch k d).fw = ch.fw := rfl
@[simp] theorem setDesc_xspi0 (k : Nat) (d : BitVec 256) : (setDesc ch k d).xspi0 = ch.xspi0 := rfl
@[simp] theorem setDesc_xspi1 (k : Nat) (d : BitVec 256) : (setDesc ch k d).xspi1 = ch.xspi1 := rfl
@[simp] theorem setDesc_ctl (k : Nat) (d : BitVec 256) : (setDesc ch k d).ctl = ch.ctl := rfl
@[simp] theorem setDesc_flitGap (k : Nat) (d : BitVec 256) : (setDesc ch k d).flitGap = ch.flitGap := rfl
@[simp] theorem setDesc_rngStallMax (k : Nat) (d : BitVec 256) : (setDesc ch k d).rngStallMax = ch.rngStallMax := rfl
@[simp] theorem setDesc_authSince (k : Nat) (d : BitVec 256) : (setDesc ch k d).authSince = ch.authSince := rfl
@[simp] theorem setDesc_tempWarned (k : Nat) (d : BitVec 256) : (setDesc ch k d).tempWarned = ch.tempWarned := rfl
@[simp] theorem setDesc_trippedOnce (k : Nat) (d : BitVec 256) : (setDesc ch k d).trippedOnce = ch.trippedOnce := rfl
@[simp] theorem setDesc_killedAtBoot (k : Nat) (d : BitVec 256) : (setDesc ch k d).killedAtBoot = ch.killedAtBoot := rfl
@[simp] theorem setDesc_admissions (k : Nat) (d : BitVec 256) : (setDesc ch k d).admissions = ch.admissions := rfl
@[simp] theorem setDesc_free (k : Nat) (d : BitVec 256) : (setDesc ch k d).free = ch.free := rfl

/-! ### setLineDesc -/

@[simp] theorem setLineDesc_powered (e : Nat) (d : BitVec 128) : (setLineDesc ch e d).powered = ch.powered := rfl
@[simp] theorem setLineDesc_dstate (e : Nat) (d : BitVec 128) : (setLineDesc ch e d).dstate = ch.dstate := rfl
@[simp] theorem setLineDesc_booted (e : Nat) (d : BitVec 128) : (setLineDesc ch e d).booted = ch.booted := rfl
@[simp] theorem setLineDesc_coreMul (e : Nat) (d : BitVec 128) : (setLineDesc ch e d).coreMul = ch.coreMul := rfl
@[simp] theorem setLineDesc_cycle (e : Nat) (d : BitVec 128) : (setLineDesc ch e d).cycle = ch.cycle := rfl
@[simp] theorem setLineDesc_boots (e : Nat) (d : BitVec 128) : (setLineDesc ch e d).boots = ch.boots := rfl
@[simp] theorem setLineDesc_pfail (e : Nat) (d : BitVec 128) : (setLineDesc ch e d).pfail = ch.pfail := rfl
@[simp] theorem setLineDesc_ports (e : Nat) (d : BitVec 128) : (setLineDesc ch e d).ports = ch.ports := rfl
@[simp] theorem setLineDesc_clusters (e : Nat) (d : BitVec 128) : (setLineDesc ch e d).clusters = ch.clusters := rfl
@[simp] theorem setLineDesc_damson (e : Nat) (d : BitVec 128) : (setLineDesc ch e d).damson = ch.damson := rfl
@[simp] theorem setLineDesc_lines (e : Nat) (d : BitVec 128) : (setLineDesc ch e d).lines = ch.lines := rfl
@[simp] theorem setLineDesc_sweeps (e : Nat) (d : BitVec 128) : (setLineDesc ch e d).sweeps = ch.sweeps := rfl
@[simp] theorem setLineDesc_sweepsInv (e : Nat) (d : BitVec 128) : (setLineDesc ch e d).sweepsInv = ch.sweepsInv := rfl
@[simp] theorem setLineDesc_ljobs (e : Nat) (d : BitVec 128) : (setLineDesc ch e d).ljobs = ch.ljobs := rfl
@[simp] theorem setLineDesc_ranges (e : Nat) (d : BitVec 128) : (setLineDesc ch e d).ranges = ch.ranges := rfl
@[simp] theorem setLineDesc_rangeNext (e : Nat) (d : BitVec 128) : (setLineDesc ch e d).rangeNext = ch.rangeNext := rfl
@[simp] theorem setLineDesc_fetchQ (e : Nat) (d : BitVec 128) : (setLineDesc ch e d).fetchQ = ch.fetchQ := rfl
@[simp] theorem setLineDesc_brambleEn (e : Nat) (d : BitVec 128) : (setLineDesc ch e d).brambleEn = ch.brambleEn := rfl
@[simp] theorem setLineDesc_bramblePend (e : Nat) (d : BitVec 128) : (setLineDesc ch e d).bramblePend = ch.bramblePend := rfl
@[simp] theorem setLineDesc_cfg (e : Nat) (d : BitVec 128) : (setLineDesc ch e d).cfg = ch.cfg := rfl
@[simp] theorem setLineDesc_cfgOld (e : Nat) (d : BitVec 128) : (setLineDesc ch e d).cfgOld = ch.cfgOld := rfl
@[simp] theorem setLineDesc_admitGen (e : Nat) (d : BitVec 128) : (setLineDesc ch e d).admitGen = ch.admitGen := rfl
@[simp] theorem setLineDesc_oldGen (e : Nat) (d : BitVec 128) : (setLineDesc ch e d).oldGen = ch.oldGen := rfl
@[simp] theorem setLineDesc_live2 (e : Nat) (d : BitVec 128) : (setLineDesc ch e d).live2 = ch.live2 := rfl
@[simp] theorem setLineDesc_tenants (e : Nat) (d : BitVec 128) : (setLineDesc ch e d).tenants = ch.tenants := rfl
@[simp] theorem setLineDesc_mbs (e : Nat) (d : BitVec 128) : (setLineDesc ch e d).mbs = ch.mbs := rfl
@[simp] theorem setLineDesc_quince (e : Nat) (d : BitVec 128) : (setLineDesc ch e d).quince = ch.quince := rfl
@[simp] theorem setLineDesc_faults (e : Nat) (d : BitVec 128) : (setLineDesc ch e d).faults = ch.faults := rfl
@[simp] theorem setLineDesc_recorder (e : Nat) (d : BitVec 128) : (setLineDesc ch e d).recorder = ch.recorder := rfl
@[simp] theorem setLineDesc_rng (e : Nat) (d : BitVec 128) : (setLineDesc ch e d).rng = ch.rng := rfl
@[simp] theorem setLineDesc_fw (e : Nat) (d : BitVec 128) : (setLineDesc ch e d).fw = ch.fw := rfl
@[simp] theorem setLineDesc_xspi0 (e : Nat) (d : BitVec 128) : (setLineDesc ch e d).xspi0 = ch.xspi0 := rfl
@[simp] theorem setLineDesc_xspi1 (e : Nat) (d : BitVec 128) : (setLineDesc ch e d).xspi1 = ch.xspi1 := rfl
@[simp] theorem setLineDesc_ctl (e : Nat) (d : BitVec 128) : (setLineDesc ch e d).ctl = ch.ctl := rfl
@[simp] theorem setLineDesc_flitGap (e : Nat) (d : BitVec 128) : (setLineDesc ch e d).flitGap = ch.flitGap := rfl
@[simp] theorem setLineDesc_rngStallMax (e : Nat) (d : BitVec 128) : (setLineDesc ch e d).rngStallMax = ch.rngStallMax := rfl
@[simp] theorem setLineDesc_authSince (e : Nat) (d : BitVec 128) : (setLineDesc ch e d).authSince = ch.authSince := rfl
@[simp] theorem setLineDesc_tempWarned (e : Nat) (d : BitVec 128) : (setLineDesc ch e d).tempWarned = ch.tempWarned := rfl
@[simp] theorem setLineDesc_trippedOnce (e : Nat) (d : BitVec 128) : (setLineDesc ch e d).trippedOnce = ch.trippedOnce := rfl
@[simp] theorem setLineDesc_killedAtBoot (e : Nat) (d : BitVec 128) : (setLineDesc ch e d).killedAtBoot = ch.killedAtBoot := rfl
@[simp] theorem setLineDesc_admissions (e : Nat) (d : BitVec 128) : (setLineDesc ch e d).admissions = ch.admissions := rfl
@[simp] theorem setLineDesc_free (e : Nat) (d : BitVec 128) : (setLineDesc ch e d).free = ch.free := rfl

/-! ### setSticky -/

@[simp] theorem setSticky_powered (ix : Nat) (v : Sticky) : (setSticky ch ix v).powered = ch.powered := rfl
@[simp] theorem setSticky_dstate (ix : Nat) (v : Sticky) : (setSticky ch ix v).dstate = ch.dstate := rfl
@[simp] theorem setSticky_booted (ix : Nat) (v : Sticky) : (setSticky ch ix v).booted = ch.booted := rfl
@[simp] theorem setSticky_coreMul (ix : Nat) (v : Sticky) : (setSticky ch ix v).coreMul = ch.coreMul := rfl
@[simp] theorem setSticky_cycle (ix : Nat) (v : Sticky) : (setSticky ch ix v).cycle = ch.cycle := rfl
@[simp] theorem setSticky_boots (ix : Nat) (v : Sticky) : (setSticky ch ix v).boots = ch.boots := rfl
@[simp] theorem setSticky_pfail (ix : Nat) (v : Sticky) : (setSticky ch ix v).pfail = ch.pfail := rfl
@[simp] theorem setSticky_ports (ix : Nat) (v : Sticky) : (setSticky ch ix v).ports = ch.ports := rfl
@[simp] theorem setSticky_clusters (ix : Nat) (v : Sticky) : (setSticky ch ix v).clusters = ch.clusters := rfl
@[simp] theorem setSticky_keys (ix : Nat) (v : Sticky) : (setSticky ch ix v).keys = ch.keys := rfl
@[simp] theorem setSticky_damson (ix : Nat) (v : Sticky) : (setSticky ch ix v).damson = ch.damson := rfl
@[simp] theorem setSticky_lines (ix : Nat) (v : Sticky) : (setSticky ch ix v).lines = ch.lines := rfl
@[simp] theorem setSticky_sweeps (ix : Nat) (v : Sticky) : (setSticky ch ix v).sweeps = ch.sweeps := rfl
@[simp] theorem setSticky_sweepsInv (ix : Nat) (v : Sticky) : (setSticky ch ix v).sweepsInv = ch.sweepsInv := rfl
@[simp] theorem setSticky_ljobs (ix : Nat) (v : Sticky) : (setSticky ch ix v).ljobs = ch.ljobs := rfl
@[simp] theorem setSticky_ranges (ix : Nat) (v : Sticky) : (setSticky ch ix v).ranges = ch.ranges := rfl
@[simp] theorem setSticky_rangeNext (ix : Nat) (v : Sticky) : (setSticky ch ix v).rangeNext = ch.rangeNext := rfl
@[simp] theorem setSticky_fetchQ (ix : Nat) (v : Sticky) : (setSticky ch ix v).fetchQ = ch.fetchQ := rfl
@[simp] theorem setSticky_brambleEn (ix : Nat) (v : Sticky) : (setSticky ch ix v).brambleEn = ch.brambleEn := rfl
@[simp] theorem setSticky_bramblePend (ix : Nat) (v : Sticky) : (setSticky ch ix v).bramblePend = ch.bramblePend := rfl
@[simp] theorem setSticky_cfg (ix : Nat) (v : Sticky) : (setSticky ch ix v).cfg = ch.cfg := rfl
@[simp] theorem setSticky_cfgOld (ix : Nat) (v : Sticky) : (setSticky ch ix v).cfgOld = ch.cfgOld := rfl
@[simp] theorem setSticky_admitGen (ix : Nat) (v : Sticky) : (setSticky ch ix v).admitGen = ch.admitGen := rfl
@[simp] theorem setSticky_oldGen (ix : Nat) (v : Sticky) : (setSticky ch ix v).oldGen = ch.oldGen := rfl
@[simp] theorem setSticky_live2 (ix : Nat) (v : Sticky) : (setSticky ch ix v).live2 = ch.live2 := rfl
@[simp] theorem setSticky_tenants (ix : Nat) (v : Sticky) : (setSticky ch ix v).tenants = ch.tenants := rfl
@[simp] theorem setSticky_mbs (ix : Nat) (v : Sticky) : (setSticky ch ix v).mbs = ch.mbs := rfl
@[simp] theorem setSticky_quince (ix : Nat) (v : Sticky) : (setSticky ch ix v).quince = ch.quince := rfl
@[simp] theorem setSticky_recorder (ix : Nat) (v : Sticky) : (setSticky ch ix v).recorder = ch.recorder := rfl
@[simp] theorem setSticky_rng (ix : Nat) (v : Sticky) : (setSticky ch ix v).rng = ch.rng := rfl
@[simp] theorem setSticky_fw (ix : Nat) (v : Sticky) : (setSticky ch ix v).fw = ch.fw := rfl
@[simp] theorem setSticky_xspi0 (ix : Nat) (v : Sticky) : (setSticky ch ix v).xspi0 = ch.xspi0 := rfl
@[simp] theorem setSticky_xspi1 (ix : Nat) (v : Sticky) : (setSticky ch ix v).xspi1 = ch.xspi1 := rfl
@[simp] theorem setSticky_ctl (ix : Nat) (v : Sticky) : (setSticky ch ix v).ctl = ch.ctl := rfl
@[simp] theorem setSticky_flitGap (ix : Nat) (v : Sticky) : (setSticky ch ix v).flitGap = ch.flitGap := rfl
@[simp] theorem setSticky_rngStallMax (ix : Nat) (v : Sticky) : (setSticky ch ix v).rngStallMax = ch.rngStallMax := rfl
@[simp] theorem setSticky_authSince (ix : Nat) (v : Sticky) : (setSticky ch ix v).authSince = ch.authSince := rfl
@[simp] theorem setSticky_tempWarned (ix : Nat) (v : Sticky) : (setSticky ch ix v).tempWarned = ch.tempWarned := rfl
@[simp] theorem setSticky_trippedOnce (ix : Nat) (v : Sticky) : (setSticky ch ix v).trippedOnce = ch.trippedOnce := rfl
@[simp] theorem setSticky_killedAtBoot (ix : Nat) (v : Sticky) : (setSticky ch ix v).killedAtBoot = ch.killedAtBoot := rfl
@[simp] theorem setSticky_admissions (ix : Nat) (v : Sticky) : (setSticky ch ix v).admissions = ch.admissions := rfl
@[simp] theorem setSticky_free (ix : Nat) (v : Sticky) : (setSticky ch ix v).free = ch.free := rfl

/-! ### setUnit -/

@[simp] theorem setUnit_powered (id : Nat) (v : UnitSt) : (setUnit ch id v).powered = ch.powered := rfl
@[simp] theorem setUnit_dstate (id : Nat) (v : UnitSt) : (setUnit ch id v).dstate = ch.dstate := rfl
@[simp] theorem setUnit_booted (id : Nat) (v : UnitSt) : (setUnit ch id v).booted = ch.booted := rfl
@[simp] theorem setUnit_coreMul (id : Nat) (v : UnitSt) : (setUnit ch id v).coreMul = ch.coreMul := rfl
@[simp] theorem setUnit_cycle (id : Nat) (v : UnitSt) : (setUnit ch id v).cycle = ch.cycle := rfl
@[simp] theorem setUnit_boots (id : Nat) (v : UnitSt) : (setUnit ch id v).boots = ch.boots := rfl
@[simp] theorem setUnit_pfail (id : Nat) (v : UnitSt) : (setUnit ch id v).pfail = ch.pfail := rfl
@[simp] theorem setUnit_ports (id : Nat) (v : UnitSt) : (setUnit ch id v).ports = ch.ports := rfl
@[simp] theorem setUnit_clusters (id : Nat) (v : UnitSt) : (setUnit ch id v).clusters = ch.clusters := rfl
@[simp] theorem setUnit_keys (id : Nat) (v : UnitSt) : (setUnit ch id v).keys = ch.keys := rfl
@[simp] theorem setUnit_damson (id : Nat) (v : UnitSt) : (setUnit ch id v).damson = ch.damson := rfl
@[simp] theorem setUnit_lines (id : Nat) (v : UnitSt) : (setUnit ch id v).lines = ch.lines := rfl
@[simp] theorem setUnit_sweeps (id : Nat) (v : UnitSt) : (setUnit ch id v).sweeps = ch.sweeps := rfl
@[simp] theorem setUnit_sweepsInv (id : Nat) (v : UnitSt) : (setUnit ch id v).sweepsInv = ch.sweepsInv := rfl
@[simp] theorem setUnit_ljobs (id : Nat) (v : UnitSt) : (setUnit ch id v).ljobs = ch.ljobs := rfl
@[simp] theorem setUnit_ranges (id : Nat) (v : UnitSt) : (setUnit ch id v).ranges = ch.ranges := rfl
@[simp] theorem setUnit_rangeNext (id : Nat) (v : UnitSt) : (setUnit ch id v).rangeNext = ch.rangeNext := rfl
@[simp] theorem setUnit_fetchQ (id : Nat) (v : UnitSt) : (setUnit ch id v).fetchQ = ch.fetchQ := rfl
@[simp] theorem setUnit_brambleEn (id : Nat) (v : UnitSt) : (setUnit ch id v).brambleEn = ch.brambleEn := rfl
@[simp] theorem setUnit_bramblePend (id : Nat) (v : UnitSt) : (setUnit ch id v).bramblePend = ch.bramblePend := rfl
@[simp] theorem setUnit_cfg (id : Nat) (v : UnitSt) : (setUnit ch id v).cfg = ch.cfg := rfl
@[simp] theorem setUnit_cfgOld (id : Nat) (v : UnitSt) : (setUnit ch id v).cfgOld = ch.cfgOld := rfl
@[simp] theorem setUnit_admitGen (id : Nat) (v : UnitSt) : (setUnit ch id v).admitGen = ch.admitGen := rfl
@[simp] theorem setUnit_oldGen (id : Nat) (v : UnitSt) : (setUnit ch id v).oldGen = ch.oldGen := rfl
@[simp] theorem setUnit_live2 (id : Nat) (v : UnitSt) : (setUnit ch id v).live2 = ch.live2 := rfl
@[simp] theorem setUnit_tenants (id : Nat) (v : UnitSt) : (setUnit ch id v).tenants = ch.tenants := rfl
@[simp] theorem setUnit_mbs (id : Nat) (v : UnitSt) : (setUnit ch id v).mbs = ch.mbs := rfl
@[simp] theorem setUnit_quince (id : Nat) (v : UnitSt) : (setUnit ch id v).quince = ch.quince := rfl
@[simp] theorem setUnit_recorder (id : Nat) (v : UnitSt) : (setUnit ch id v).recorder = ch.recorder := rfl
@[simp] theorem setUnit_rng (id : Nat) (v : UnitSt) : (setUnit ch id v).rng = ch.rng := rfl
@[simp] theorem setUnit_fw (id : Nat) (v : UnitSt) : (setUnit ch id v).fw = ch.fw := rfl
@[simp] theorem setUnit_xspi0 (id : Nat) (v : UnitSt) : (setUnit ch id v).xspi0 = ch.xspi0 := rfl
@[simp] theorem setUnit_xspi1 (id : Nat) (v : UnitSt) : (setUnit ch id v).xspi1 = ch.xspi1 := rfl
@[simp] theorem setUnit_ctl (id : Nat) (v : UnitSt) : (setUnit ch id v).ctl = ch.ctl := rfl
@[simp] theorem setUnit_flitGap (id : Nat) (v : UnitSt) : (setUnit ch id v).flitGap = ch.flitGap := rfl
@[simp] theorem setUnit_rngStallMax (id : Nat) (v : UnitSt) : (setUnit ch id v).rngStallMax = ch.rngStallMax := rfl
@[simp] theorem setUnit_authSince (id : Nat) (v : UnitSt) : (setUnit ch id v).authSince = ch.authSince := rfl
@[simp] theorem setUnit_tempWarned (id : Nat) (v : UnitSt) : (setUnit ch id v).tempWarned = ch.tempWarned := rfl
@[simp] theorem setUnit_trippedOnce (id : Nat) (v : UnitSt) : (setUnit ch id v).trippedOnce = ch.trippedOnce := rfl
@[simp] theorem setUnit_killedAtBoot (id : Nat) (v : UnitSt) : (setUnit ch id v).killedAtBoot = ch.killedAtBoot := rfl
@[simp] theorem setUnit_admissions (id : Nat) (v : UnitSt) : (setUnit ch id v).admissions = ch.admissions := rfl
@[simp] theorem setUnit_free (id : Nat) (v : UnitSt) : (setUnit ch id v).free = ch.free := rfl

/-! ### setDamson -/

@[simp] theorem setDamson_powered (f : Damson → Damson) : (setDamson ch f).powered = ch.powered := rfl
@[simp] theorem setDamson_dstate (f : Damson → Damson) : (setDamson ch f).dstate = ch.dstate := rfl
@[simp] theorem setDamson_booted (f : Damson → Damson) : (setDamson ch f).booted = ch.booted := rfl
@[simp] theorem setDamson_coreMul (f : Damson → Damson) : (setDamson ch f).coreMul = ch.coreMul := rfl
@[simp] theorem setDamson_cycle (f : Damson → Damson) : (setDamson ch f).cycle = ch.cycle := rfl
@[simp] theorem setDamson_boots (f : Damson → Damson) : (setDamson ch f).boots = ch.boots := rfl
@[simp] theorem setDamson_pfail (f : Damson → Damson) : (setDamson ch f).pfail = ch.pfail := rfl
@[simp] theorem setDamson_ports (f : Damson → Damson) : (setDamson ch f).ports = ch.ports := rfl
@[simp] theorem setDamson_clusters (f : Damson → Damson) : (setDamson ch f).clusters = ch.clusters := rfl
@[simp] theorem setDamson_keys (f : Damson → Damson) : (setDamson ch f).keys = ch.keys := rfl
@[simp] theorem setDamson_lines (f : Damson → Damson) : (setDamson ch f).lines = ch.lines := rfl
@[simp] theorem setDamson_sweeps (f : Damson → Damson) : (setDamson ch f).sweeps = ch.sweeps := rfl
@[simp] theorem setDamson_sweepsInv (f : Damson → Damson) : (setDamson ch f).sweepsInv = ch.sweepsInv := rfl
@[simp] theorem setDamson_ljobs (f : Damson → Damson) : (setDamson ch f).ljobs = ch.ljobs := rfl
@[simp] theorem setDamson_ranges (f : Damson → Damson) : (setDamson ch f).ranges = ch.ranges := rfl
@[simp] theorem setDamson_rangeNext (f : Damson → Damson) : (setDamson ch f).rangeNext = ch.rangeNext := rfl
@[simp] theorem setDamson_fetchQ (f : Damson → Damson) : (setDamson ch f).fetchQ = ch.fetchQ := rfl
@[simp] theorem setDamson_brambleEn (f : Damson → Damson) : (setDamson ch f).brambleEn = ch.brambleEn := rfl
@[simp] theorem setDamson_bramblePend (f : Damson → Damson) : (setDamson ch f).bramblePend = ch.bramblePend := rfl
@[simp] theorem setDamson_cfg (f : Damson → Damson) : (setDamson ch f).cfg = ch.cfg := rfl
@[simp] theorem setDamson_cfgOld (f : Damson → Damson) : (setDamson ch f).cfgOld = ch.cfgOld := rfl
@[simp] theorem setDamson_admitGen (f : Damson → Damson) : (setDamson ch f).admitGen = ch.admitGen := rfl
@[simp] theorem setDamson_oldGen (f : Damson → Damson) : (setDamson ch f).oldGen = ch.oldGen := rfl
@[simp] theorem setDamson_live2 (f : Damson → Damson) : (setDamson ch f).live2 = ch.live2 := rfl
@[simp] theorem setDamson_tenants (f : Damson → Damson) : (setDamson ch f).tenants = ch.tenants := rfl
@[simp] theorem setDamson_mbs (f : Damson → Damson) : (setDamson ch f).mbs = ch.mbs := rfl
@[simp] theorem setDamson_quince (f : Damson → Damson) : (setDamson ch f).quince = ch.quince := rfl
@[simp] theorem setDamson_faults (f : Damson → Damson) : (setDamson ch f).faults = ch.faults := rfl
@[simp] theorem setDamson_recorder (f : Damson → Damson) : (setDamson ch f).recorder = ch.recorder := rfl
@[simp] theorem setDamson_rng (f : Damson → Damson) : (setDamson ch f).rng = ch.rng := rfl
@[simp] theorem setDamson_fw (f : Damson → Damson) : (setDamson ch f).fw = ch.fw := rfl
@[simp] theorem setDamson_xspi0 (f : Damson → Damson) : (setDamson ch f).xspi0 = ch.xspi0 := rfl
@[simp] theorem setDamson_xspi1 (f : Damson → Damson) : (setDamson ch f).xspi1 = ch.xspi1 := rfl
@[simp] theorem setDamson_ctl (f : Damson → Damson) : (setDamson ch f).ctl = ch.ctl := rfl
@[simp] theorem setDamson_flitGap (f : Damson → Damson) : (setDamson ch f).flitGap = ch.flitGap := rfl
@[simp] theorem setDamson_rngStallMax (f : Damson → Damson) : (setDamson ch f).rngStallMax = ch.rngStallMax := rfl
@[simp] theorem setDamson_authSince (f : Damson → Damson) : (setDamson ch f).authSince = ch.authSince := rfl
@[simp] theorem setDamson_tempWarned (f : Damson → Damson) : (setDamson ch f).tempWarned = ch.tempWarned := rfl
@[simp] theorem setDamson_trippedOnce (f : Damson → Damson) : (setDamson ch f).trippedOnce = ch.trippedOnce := rfl
@[simp] theorem setDamson_killedAtBoot (f : Damson → Damson) : (setDamson ch f).killedAtBoot = ch.killedAtBoot := rfl
@[simp] theorem setDamson_admissions (f : Damson → Damson) : (setDamson ch f).admissions = ch.admissions := rfl
@[simp] theorem setDamson_free (f : Damson → Damson) : (setDamson ch f).free = ch.free := rfl

/-! ### Reads of what was written -/

@[simp] theorem getPort_setPort_self (i : Nat) (v : Port) : getPort (setPort ch i v) i = v := Tbl.get_set_self _ _ _ _
theorem getPort_setPort_other {i j : Nat} (h : i ≠ j) (v : Port) : getPort (setPort ch j v) i = getPort ch i := Tbl.get_set_other _ _ h _
@[simp] theorem getCluster_setCluster_self (i : Nat) (v : Cluster) : getCluster (setCluster ch i v) i = v := Tbl.get_set_self _ _ _ _
theorem getCluster_setCluster_other {i j : Nat} (h : i ≠ j) (v : Cluster) : getCluster (setCluster ch j v) i = getCluster ch i := Tbl.get_set_other _ _ h _
@[simp] theorem getLine_setLine_self (i : Nat) (v : LinePort) : getLine (setLine ch i v) i = v := Tbl.get_set_self _ _ _ _
theorem getLine_setLine_other {i j : Nat} (h : i ≠ j) (v : LinePort) : getLine (setLine ch j v) i = getLine ch i := Tbl.get_set_other _ _ h _
@[simp] theorem getMb_setMb_self (i : Nat) (v : Mailbox) : getMb (setMb ch i v) i = v := Tbl.get_set_self _ _ _ _
theorem getMb_setMb_other {i j : Nat} (h : i ≠ j) (v : Mailbox) : getMb (setMb ch j v) i = getMb ch i := Tbl.get_set_other _ _ h _
@[simp] theorem getTenant_setTenant_self (i : Nat) (v : Tenant) : getTenant (setTenant ch i v) i = v := Tbl.get_set_self _ _ _ _
theorem getTenant_setTenant_other {i j : Nat} (h : i ≠ j) (v : Tenant) : getTenant (setTenant ch j v) i = getTenant ch i := Tbl.get_set_other _ _ h _
@[simp] theorem getRange_setRange_self (i : Nat) (v : Option Range) : getRange (setRange ch i v) i = v := Tbl.get_set_self _ _ _ _
theorem getRange_setRange_other {i j : Nat} (h : i ≠ j) (v : Option Range) : getRange (setRange ch j v) i = getRange ch i := Tbl.get_set_other _ _ h _
@[simp] theorem getLjob_setLjob_self (i : Nat) (v : Option LineJob) : getLjob (setLjob ch i v) i = v := Tbl.get_set_self _ _ _ _
theorem getLjob_setLjob_other {i j : Nat} (h : i ≠ j) (v : Option LineJob) : getLjob (setLjob ch j v) i = getLjob ch i := Tbl.get_set_other _ _ h _
@[simp] theorem getSweep_setSweep_self (i : Nat) (v : Sweep) : getSweep (setSweep ch i v) i = v := Tbl.get_set_self _ _ _ _
theorem getSweep_setSweep_other {i j : Nat} (h : i ≠ j) (v : Sweep) : getSweep (setSweep ch j v) i = getSweep ch i := Tbl.get_set_other _ _ h _
@[simp] theorem slotDesc_setDesc_self (i : Nat) (v : BitVec 256) : slotDesc (setDesc ch i v) i = v := Tbl.get_set_self _ _ _ _
theorem slotDesc_setDesc_other {i j : Nat} (h : i ≠ j) (v : BitVec 256) : slotDesc (setDesc ch j v) i = slotDesc ch i := Tbl.get_set_other _ _ h _
@[simp] theorem lineDesc_setLineDesc_self (i : Nat) (v : BitVec 128) : lineDesc (setLineDesc ch i v) i = v := Tbl.get_set_self _ _ _ _
theorem lineDesc_setLineDesc_other {i j : Nat} (h : i ≠ j) (v : BitVec 128) : lineDesc (setLineDesc ch j v) i = lineDesc ch i := Tbl.get_set_other _ _ h _
@[simp] theorem getSticky_setSticky_self (i : Nat) (v : Sticky) : getSticky (setSticky ch i v) i = v := Tbl.get_set_self _ _ _ _
theorem getSticky_setSticky_other {i j : Nat} (h : i ≠ j) (v : Sticky) : getSticky (setSticky ch j v) i = getSticky ch i := Tbl.get_set_other _ _ h _
@[simp] theorem getUnit_setUnit_self (i : Nat) (v : UnitSt) : getUnit (setUnit ch i v) i = v := Tbl.get_set_self _ _ _ _
@[simp] theorem setDamson_damson (f : Damson → Damson) : (setDamson ch f).damson = f ch.damson := rfl

/-! ### The parts that a write through a part leaves -/

@[simp] theorem setDesc_keys_vk (k : Nat) (d : BitVec 256) : (setDesc ch k d).keys.vk = ch.keys.vk := rfl
@[simp] theorem setDesc_keys_tk (k : Nat) (d : BitVec 256) : (setDesc ch k d).keys.tk = ch.keys.tk := rfl
@[simp] theorem setDesc_keys_ck (k : Nat) (d : BitVec 256) : (setDesc ch k d).keys.ck = ch.keys.ck := rfl
@[simp] theorem setDesc_keys_awaitCk (k : Nat) (d : BitVec 256) : (setDesc ch k d).keys.awaitCk = ch.keys.awaitCk := rfl
@[simp] theorem setDesc_keys_secretGen (k : Nat) (d : BitVec 256) : (setDesc ch k d).keys.secretGen = ch.keys.secretGen := rfl
@[simp] theorem setDesc_keys_cache (k : Nat) (d : BitVec 256) : (setDesc ch k d).keys.cache = ch.keys.cache := rfl
@[simp] theorem setDesc_keys_codes (k : Nat) (d : BitVec 256) : (setDesc ch k d).keys.codes = ch.keys.codes := rfl
@[simp] theorem setDesc_keys_inflight (k : Nat) (d : BitVec 256) : (setDesc ch k d).keys.inflight = ch.keys.inflight := rfl
@[simp] theorem setDesc_keys_silent (k : Nat) (d : BitVec 256) : (setDesc ch k d).keys.silent = ch.keys.silent := rfl
@[simp] theorem setDesc_keys_pins (k : Nat) (d : BitVec 256) : (setDesc ch k d).keys.pins = ch.keys.pins := rfl
@[simp] theorem setDesc_keys_keks (k : Nat) (d : BitVec 256) : (setDesc ch k d).keys.keks = ch.keys.keks := rfl
@[simp] theorem setDesc_keys_gtkCur (k : Nat) (d : BitVec 256) : (setDesc ch k d).keys.gtkCur = ch.keys.gtkCur := rfl
@[simp] theorem setDesc_keys_gtkPrev (k : Nat) (d : BitVec 256) : (setDesc ch k d).keys.gtkPrev = ch.keys.gtkPrev := rfl
@[simp] theorem setDesc_keys_offA (k : Nat) (d : BitVec 256) : (setDesc ch k d).keys.offA = ch.keys.offA := rfl
@[simp] theorem setDesc_keys_offB (k : Nat) (d : BitVec 256) : (setDesc ch k d).keys.offB = ch.keys.offB := rfl
@[simp] theorem setDesc_keys_session (k : Nat) (d : BitVec 256) : (setDesc ch k d).keys.session = ch.keys.session := rfl
@[simp] theorem setDesc_keys_ldesc (k : Nat) (d : BitVec 256) : (setDesc ch k d).keys.ldesc = ch.keys.ldesc := rfl
@[simp] theorem setDesc_keys_ldescInv (k : Nat) (d : BitVec 256) : (setDesc ch k d).keys.ldescInv = ch.keys.ldescInv := rfl
@[simp] theorem setDesc_keys_lstore (k : Nat) (d : BitVec 256) : (setDesc ch k d).keys.lstore = ch.keys.lstore := rfl
@[simp] theorem setDesc_keys_lcodes (k : Nat) (d : BitVec 256) : (setDesc ch k d).keys.lcodes = ch.keys.lcodes := rfl
@[simp] theorem setDesc_keys_linflight (k : Nat) (d : BitVec 256) : (setDesc ch k d).keys.linflight = ch.keys.linflight := rfl
@[simp] theorem setDesc_keys_lsilent (k : Nat) (d : BitVec 256) : (setDesc ch k d).keys.lsilent = ch.keys.lsilent := rfl
@[simp] theorem setDesc_keys_lregs (k : Nat) (d : BitVec 256) : (setDesc ch k d).keys.lregs = ch.keys.lregs := rfl
@[simp] theorem setSticky_faults_srcs (ix : Nat) (v : Sticky) : (setSticky ch ix v).faults.srcs = ch.faults.srcs := rfl
@[simp] theorem setUnit_faults_srcs (id : Nat) (v : UnitSt) : (setUnit ch id v).faults.srcs = ch.faults.srcs := rfl
@[simp] theorem setUnit_faults_sticky (id : Nat) (v : UnitSt) : (setUnit ch id v).faults.sticky = ch.faults.sticky := rfl
@[simp] theorem setSticky_faults_net (ix : Nat) (v : Sticky) : (setSticky ch ix v).faults.net = ch.faults.net := rfl
@[simp] theorem setUnit_faults_net (id : Nat) (v : UnitSt) : (setUnit ch id v).faults.net = ch.faults.net := rfl
@[simp] theorem setSticky_faults_last (ix : Nat) (v : Sticky) : (setSticky ch ix v).faults.last = ch.faults.last := rfl
@[simp] theorem setUnit_faults_last (id : Nat) (v : UnitSt) : (setUnit ch id v).faults.last = ch.faults.last := rfl
@[simp] theorem setSticky_faults_units (ix : Nat) (v : Sticky) : (setSticky ch ix v).faults.units = ch.faults.units := rfl
@[simp] theorem setSticky_faults_settle (ix : Nat) (v : Sticky) : (setSticky ch ix v).faults.settle = ch.faults.settle := rfl
@[simp] theorem setUnit_faults_settle (id : Nat) (v : UnitSt) : (setUnit ch id v).faults.settle = ch.faults.settle := rfl
@[simp] theorem setSticky_faults_replaceLevel (ix : Nat) (v : Sticky) : (setSticky ch ix v).faults.replaceLevel = ch.faults.replaceLevel := rfl
@[simp] theorem setUnit_faults_replaceLevel (id : Nat) (v : UnitSt) : (setUnit ch id v).faults.replaceLevel = ch.faults.replaceLevel := rfl
@[simp] theorem setSticky_faults_replace (ix : Nat) (v : Sticky) : (setSticky ch ix v).faults.replace = ch.faults.replace := rfl
@[simp] theorem setUnit_faults_replace (id : Nat) (v : UnitSt) : (setUnit ch id v).faults.replace = ch.faults.replace := rfl
@[simp] theorem setSticky_faults_react (ix : Nat) (v : Sticky) : (setSticky ch ix v).faults.react = ch.faults.react := rfl
@[simp] theorem setUnit_faults_react (id : Nat) (v : UnitSt) : (setUnit ch id v).faults.react = ch.faults.react := rfl
@[simp] theorem setSticky_faults_cause (ix : Nat) (v : Sticky) : (setSticky ch ix v).faults.cause = ch.faults.cause := rfl
@[simp] theorem setUnit_faults_cause (id : Nat) (v : UnitSt) : (setUnit ch id v).faults.cause = ch.faults.cause := rfl
@[simp] theorem setSticky_faults_haltAt (ix : Nat) (v : Sticky) : (setSticky ch ix v).faults.haltAt = ch.faults.haltAt := rfl
@[simp] theorem setUnit_faults_haltAt (id : Nat) (v : UnitSt) : (setUnit ch id v).faults.haltAt = ch.faults.haltAt := rfl
@[simp] theorem setSticky_faults_closing (ix : Nat) (v : Sticky) : (setSticky ch ix v).faults.closing = ch.faults.closing := rfl
@[simp] theorem setUnit_faults_closing (id : Nat) (v : UnitSt) : (setUnit ch id v).faults.closing = ch.faults.closing := rfl
@[simp] theorem setSticky_faults_sweeping (ix : Nat) (v : Sticky) : (setSticky ch ix v).faults.sweeping = ch.faults.sweeping := rfl
@[simp] theorem setUnit_faults_sweeping (id : Nat) (v : UnitSt) : (setUnit ch id v).faults.sweeping = ch.faults.sweeping := rfl
@[simp] theorem setSticky_faults_quiet (ix : Nat) (v : Sticky) : (setSticky ch ix v).faults.quiet = ch.faults.quiet := rfl
@[simp] theorem setUnit_faults_quiet (id : Nat) (v : UnitSt) : (setUnit ch id v).faults.quiet = ch.faults.quiet := rfl
@[simp] theorem setSticky_faults_attEn (ix : Nat) (v : Sticky) : (setSticky ch ix v).faults.attEn = ch.faults.attEn := rfl
@[simp] theorem setUnit_faults_attEn (id : Nat) (v : UnitSt) : (setUnit ch id v).faults.attEn = ch.faults.attEn := rfl
@[simp] theorem setSticky_faults_attPend (ix : Nat) (v : Sticky) : (setSticky ch ix v).faults.attPend = ch.faults.attPend := rfl
@[simp] theorem setUnit_faults_attPend (id : Nat) (v : UnitSt) : (setUnit ch id v).faults.attPend = ch.faults.attPend := rfl

end Sys2Proof.Machine
end

