-- ==== Sys2Proof/Laws/Frames.lean ====
section
/-! SUPPORT. What recording an event and raising an attention cause leave as they were, field by field. -/

namespace Sys2Proof.Machine

theorem Posts.powered {a b : Chip} (h : Posts a b) : b.powered = a.powered := by rw [h.rest]
theorem Posts.dstate {a b : Chip} (h : Posts a b) : b.dstate = a.dstate := by rw [h.rest]
theorem Posts.booted {a b : Chip} (h : Posts a b) : b.booted = a.booted := by rw [h.rest]
theorem Posts.coreMul {a b : Chip} (h : Posts a b) : b.coreMul = a.coreMul := by rw [h.rest]
theorem Posts.cycle {a b : Chip} (h : Posts a b) : b.cycle = a.cycle := by rw [h.rest]
theorem Posts.boots {a b : Chip} (h : Posts a b) : b.boots = a.boots := by rw [h.rest]
theorem Posts.pfail {a b : Chip} (h : Posts a b) : b.pfail = a.pfail := by rw [h.rest]
theorem Posts.ports {a b : Chip} (h : Posts a b) : b.ports = a.ports := by rw [h.rest]
theorem Posts.clusters {a b : Chip} (h : Posts a b) : b.clusters = a.clusters := by rw [h.rest]
theorem Posts.keys {a b : Chip} (h : Posts a b) : b.keys = a.keys := by rw [h.rest]
theorem Posts.damson {a b : Chip} (h : Posts a b) : b.damson = a.damson := by rw [h.rest]
theorem Posts.lines {a b : Chip} (h : Posts a b) : b.lines = a.lines := by rw [h.rest]
theorem Posts.sweeps {a b : Chip} (h : Posts a b) : b.sweeps = a.sweeps := by rw [h.rest]
theorem Posts.sweepsInv {a b : Chip} (h : Posts a b) : b.sweepsInv = a.sweepsInv := by rw [h.rest]
theorem Posts.ljobs {a b : Chip} (h : Posts a b) : b.ljobs = a.ljobs := by rw [h.rest]
theorem Posts.ranges {a b : Chip} (h : Posts a b) : b.ranges = a.ranges := by rw [h.rest]
theorem Posts.rangeNext {a b : Chip} (h : Posts a b) : b.rangeNext = a.rangeNext := by rw [h.rest]
theorem Posts.fetchQ {a b : Chip} (h : Posts a b) : b.fetchQ = a.fetchQ := by rw [h.rest]
theorem Posts.brambleEn {a b : Chip} (h : Posts a b) : b.brambleEn = a.brambleEn := by rw [h.rest]
theorem Posts.cfg {a b : Chip} (h : Posts a b) : b.cfg = a.cfg := by rw [h.rest]
theorem Posts.cfgOld {a b : Chip} (h : Posts a b) : b.cfgOld = a.cfgOld := by rw [h.rest]
theorem Posts.admitGen {a b : Chip} (h : Posts a b) : b.admitGen = a.admitGen := by rw [h.rest]
theorem Posts.oldGen {a b : Chip} (h : Posts a b) : b.oldGen = a.oldGen := by rw [h.rest]
theorem Posts.live2 {a b : Chip} (h : Posts a b) : b.live2 = a.live2 := by rw [h.rest]
theorem Posts.tenants {a b : Chip} (h : Posts a b) : b.tenants = a.tenants := by rw [h.rest]
theorem Posts.quince {a b : Chip} (h : Posts a b) : b.quince = a.quince := by rw [h.rest]
theorem Posts.rng {a b : Chip} (h : Posts a b) : b.rng = a.rng := by rw [h.rest]
theorem Posts.fw {a b : Chip} (h : Posts a b) : b.fw = a.fw := by rw [h.rest]
theorem Posts.flitGap {a b : Chip} (h : Posts a b) : b.flitGap = a.flitGap := by rw [h.rest]
theorem Posts.rngStallMax {a b : Chip} (h : Posts a b) : b.rngStallMax = a.rngStallMax := by rw [h.rest]
theorem Posts.authSince {a b : Chip} (h : Posts a b) : b.authSince = a.authSince := by rw [h.rest]
theorem Posts.tempWarned {a b : Chip} (h : Posts a b) : b.tempWarned = a.tempWarned := by rw [h.rest]
theorem Posts.trippedOnce {a b : Chip} (h : Posts a b) : b.trippedOnce = a.trippedOnce := by rw [h.rest]
theorem Posts.killedAtBoot {a b : Chip} (h : Posts a b) : b.killedAtBoot = a.killedAtBoot := by rw [h.rest]
theorem Posts.admissions {a b : Chip} (h : Posts a b) : b.admissions = a.admissions := by rw [h.rest]
theorem Posts.free {a b : Chip} (h : Posts a b) : b.free = a.free := by rw [h.rest]
theorem Posts.faults_srcs {a b : Chip} (h : Posts a b) : b.faults.srcs = a.faults.srcs := by rw [h.faults]
theorem Posts.faults_sticky {a b : Chip} (h : Posts a b) : b.faults.sticky = a.faults.sticky := by rw [h.faults]
theorem Posts.faults_net {a b : Chip} (h : Posts a b) : b.faults.net = a.faults.net := by rw [h.faults]
theorem Posts.faults_last {a b : Chip} (h : Posts a b) : b.faults.last = a.faults.last := by rw [h.faults]
theorem Posts.faults_units {a b : Chip} (h : Posts a b) : b.faults.units = a.faults.units := by rw [h.faults]
theorem Posts.faults_settle {a b : Chip} (h : Posts a b) : b.faults.settle = a.faults.settle := by rw [h.faults]
theorem Posts.faults_replaceLevel {a b : Chip} (h : Posts a b) : b.faults.replaceLevel = a.faults.replaceLevel := by rw [h.faults]
theorem Posts.faults_replace {a b : Chip} (h : Posts a b) : b.faults.replace = a.faults.replace := by rw [h.faults]
theorem Posts.faults_react {a b : Chip} (h : Posts a b) : b.faults.react = a.faults.react := by rw [h.faults]
theorem Posts.faults_cause {a b : Chip} (h : Posts a b) : b.faults.cause = a.faults.cause := by rw [h.faults]
theorem Posts.faults_haltAt {a b : Chip} (h : Posts a b) : b.faults.haltAt = a.faults.haltAt := by rw [h.faults]
theorem Posts.faults_closing {a b : Chip} (h : Posts a b) : b.faults.closing = a.faults.closing := by rw [h.faults]
theorem Posts.faults_sweeping {a b : Chip} (h : Posts a b) : b.faults.sweeping = a.faults.sweeping := by rw [h.faults]
theorem Posts.faults_quiet {a b : Chip} (h : Posts a b) : b.faults.quiet = a.faults.quiet := by rw [h.faults]
theorem Posts.faults_attEn {a b : Chip} (h : Posts a b) : b.faults.attEn = a.faults.attEn := by rw [h.faults]

/-! ### attRaise -/

@[simp] theorem attRaise_powered (ch : Chip) (src cause : Nat) : (attRaise ch src cause).powered = ch.powered := (attRaise_posts _ _ _).powered
@[simp] theorem attRaise_dstate (ch : Chip) (src cause : Nat) : (attRaise ch src cause).dstate = ch.dstate := (attRaise_posts _ _ _).dstate
@[simp] theorem attRaise_booted (ch : Chip) (src cause : Nat) : (attRaise ch src cause).booted = ch.booted := (attRaise_posts _ _ _).booted
@[simp] theorem attRaise_coreMul (ch : Chip) (src cause : Nat) : (attRaise ch src cause).coreMul = ch.coreMul := (attRaise_posts _ _ _).coreMul
@[simp] theorem attRaise_cycle (ch : Chip) (src cause : Nat) : (attRaise ch src cause).cycle = ch.cycle := (attRaise_posts _ _ _).cycle
@[simp] theorem attRaise_boots (ch : Chip) (src cause : Nat) : (attRaise ch src cause).boots = ch.boots := (attRaise_posts _ _ _).boots
@[simp] theorem attRaise_pfail (ch : Chip) (src cause : Nat) : (attRaise ch src cause).pfail = ch.pfail := (attRaise_posts _ _ _).pfail
@[simp] theorem attRaise_ports (ch : Chip) (src cause : Nat) : (attRaise ch src cause).ports = ch.ports := (attRaise_posts _ _ _).ports
@[simp] theorem attRaise_clusters (ch : Chip) (src cause : Nat) : (attRaise ch src cause).clusters = ch.clusters := (attRaise_posts _ _ _).clusters
@[simp] theorem attRaise_keys (ch : Chip) (src cause : Nat) : (attRaise ch src cause).keys = ch.keys := (attRaise_posts _ _ _).keys
@[simp] theorem attRaise_damson (ch : Chip) (src cause : Nat) : (attRaise ch src cause).damson = ch.damson := (attRaise_posts _ _ _).damson
@[simp] theorem attRaise_lines (ch : Chip) (src cause : Nat) : (attRaise ch src cause).lines = ch.lines := (attRaise_posts _ _ _).lines
@[simp] theorem attRaise_sweeps (ch : Chip) (src cause : Nat) : (attRaise ch src cause).sweeps = ch.sweeps := (attRaise_posts _ _ _).sweeps
@[simp] theorem attRaise_sweepsInv (ch : Chip) (src cause : Nat) : (attRaise ch src cause).sweepsInv = ch.sweepsInv := (attRaise_posts _ _ _).sweepsInv
@[simp] theorem attRaise_ljobs (ch : Chip) (src cause : Nat) : (attRaise ch src cause).ljobs = ch.ljobs := (attRaise_posts _ _ _).ljobs
@[simp] theorem attRaise_ranges (ch : Chip) (src cause : Nat) : (attRaise ch src cause).ranges = ch.ranges := (attRaise_posts _ _ _).ranges
@[simp] theorem attRaise_rangeNext (ch : Chip) (src cause : Nat) : (attRaise ch src cause).rangeNext = ch.rangeNext := (attRaise_posts _ _ _).rangeNext
@[simp] theorem attRaise_fetchQ (ch : Chip) (src cause : Nat) : (attRaise ch src cause).fetchQ = ch.fetchQ := (attRaise_posts _ _ _).fetchQ
@[simp] theorem attRaise_brambleEn (ch : Chip) (src cause : Nat) : (attRaise ch src cause).brambleEn = ch.brambleEn := (attRaise_posts _ _ _).brambleEn
@[simp] theorem attRaise_cfg (ch : Chip) (src cause : Nat) : (attRaise ch src cause).cfg = ch.cfg := (attRaise_posts _ _ _).cfg
@[simp] theorem attRaise_cfgOld (ch : Chip) (src cause : Nat) : (attRaise ch src cause).cfgOld = ch.cfgOld := (attRaise_posts _ _ _).cfgOld
@[simp] theorem attRaise_admitGen (ch : Chip) (src cause : Nat) : (attRaise ch src cause).admitGen = ch.admitGen := (attRaise_posts _ _ _).admitGen
@[simp] theorem attRaise_oldGen (ch : Chip) (src cause : Nat) : (attRaise ch src cause).oldGen = ch.oldGen := (attRaise_posts _ _ _).oldGen
@[simp] theorem attRaise_live2 (ch : Chip) (src cause : Nat) : (attRaise ch src cause).live2 = ch.live2 := (attRaise_posts _ _ _).live2
@[simp] theorem attRaise_tenants (ch : Chip) (src cause : Nat) : (attRaise ch src cause).tenants = ch.tenants := (attRaise_posts _ _ _).tenants
@[simp] theorem attRaise_quince (ch : Chip) (src cause : Nat) : (attRaise ch src cause).quince = ch.quince := (attRaise_posts _ _ _).quince
@[simp] theorem attRaise_rng (ch : Chip) (src cause : Nat) : (attRaise ch src cause).rng = ch.rng := (attRaise_posts _ _ _).rng
@[simp] theorem attRaise_fw (ch : Chip) (src cause : Nat) : (attRaise ch src cause).fw = ch.fw := (attRaise_posts _ _ _).fw
@[simp] theorem attRaise_flitGap (ch : Chip) (src cause : Nat) : (attRaise ch src cause).flitGap = ch.flitGap := (attRaise_posts _ _ _).flitGap
@[simp] theorem attRaise_rngStallMax (ch : Chip) (src cause : Nat) : (attRaise ch src cause).rngStallMax = ch.rngStallMax := (attRaise_posts _ _ _).rngStallMax
@[simp] theorem attRaise_authSince (ch : Chip) (src cause : Nat) : (attRaise ch src cause).authSince = ch.authSince := (attRaise_posts _ _ _).authSince
@[simp] theorem attRaise_tempWarned (ch : Chip) (src cause : Nat) : (attRaise ch src cause).tempWarned = ch.tempWarned := (attRaise_posts _ _ _).tempWarned
@[simp] theorem attRaise_trippedOnce (ch : Chip) (src cause : Nat) : (attRaise ch src cause).trippedOnce = ch.trippedOnce := (attRaise_posts _ _ _).trippedOnce
@[simp] theorem attRaise_killedAtBoot (ch : Chip) (src cause : Nat) : (attRaise ch src cause).killedAtBoot = ch.killedAtBoot := (attRaise_posts _ _ _).killedAtBoot
@[simp] theorem attRaise_admissions (ch : Chip) (src cause : Nat) : (attRaise ch src cause).admissions = ch.admissions := (attRaise_posts _ _ _).admissions
@[simp] theorem attRaise_free (ch : Chip) (src cause : Nat) : (attRaise ch src cause).free = ch.free := (attRaise_posts _ _ _).free
@[simp] theorem attRaise_faults_srcs (ch : Chip) (src cause : Nat) : (attRaise ch src cause).faults.srcs = ch.faults.srcs :=
  (attRaise_posts _ _ _).faults_srcs
@[simp] theorem attRaise_faults_sticky (ch : Chip) (src cause : Nat) : (attRaise ch src cause).faults.sticky = ch.faults.sticky :=
  (attRaise_posts _ _ _).faults_sticky
@[simp] theorem attRaise_faults_net (ch : Chip) (src cause : Nat) : (attRaise ch src cause).faults.net = ch.faults.net :=
  (attRaise_posts _ _ _).faults_net
@[simp] theorem attRaise_faults_last (ch : Chip) (src cause : Nat) : (attRaise ch src cause).faults.last = ch.faults.last :=
  (attRaise_posts _ _ _).faults_last
@[simp] theorem attRaise_faults_units (ch : Chip) (src cause : Nat) : (attRaise ch src cause).faults.units = ch.faults.units :=
  (attRaise_posts _ _ _).faults_units
@[simp] theorem attRaise_faults_settle (ch : Chip) (src cause : Nat) : (attRaise ch src cause).faults.settle = ch.faults.settle :=
  (attRaise_posts _ _ _).faults_settle
@[simp] theorem attRaise_faults_replaceLevel (ch : Chip) (src cause : Nat) : (attRaise ch src cause).faults.replaceLevel = ch.faults.replaceLevel :=
  (attRaise_posts _ _ _).faults_replaceLevel
@[simp] theorem attRaise_faults_replace (ch : Chip) (src cause : Nat) : (attRaise ch src cause).faults.replace = ch.faults.replace :=
  (attRaise_posts _ _ _).faults_replace
@[simp] theorem attRaise_faults_react (ch : Chip) (src cause : Nat) : (attRaise ch src cause).faults.react = ch.faults.react :=
  (attRaise_posts _ _ _).faults_react
@[simp] theorem attRaise_faults_cause (ch : Chip) (src cause : Nat) : (attRaise ch src cause).faults.cause = ch.faults.cause :=
  (attRaise_posts _ _ _).faults_cause
@[simp] theorem attRaise_faults_haltAt (ch : Chip) (src cause : Nat) : (attRaise ch src cause).faults.haltAt = ch.faults.haltAt :=
  (attRaise_posts _ _ _).faults_haltAt
@[simp] theorem attRaise_faults_closing (ch : Chip) (src cause : Nat) : (attRaise ch src cause).faults.closing = ch.faults.closing :=
  (attRaise_posts _ _ _).faults_closing
@[simp] theorem attRaise_faults_sweeping (ch : Chip) (src cause : Nat) : (attRaise ch src cause).faults.sweeping = ch.faults.sweeping :=
  (attRaise_posts _ _ _).faults_sweeping
@[simp] theorem attRaise_faults_quiet (ch : Chip) (src cause : Nat) : (attRaise ch src cause).faults.quiet = ch.faults.quiet :=
  (attRaise_posts _ _ _).faults_quiet
@[simp] theorem attRaise_faults_attEn (ch : Chip) (src cause : Nat) : (attRaise ch src cause).faults.attEn = ch.faults.attEn :=
  (attRaise_posts _ _ _).faults_attEn

/-! ### event -/

@[simp] theorem event_powered (ch : Chip) (code sev : Nat) (tv : Option Nat) (fs : List (Nat × Nat)) : (event ch code sev tv fs).powered = ch.powered := (event_posts _ _ _ _ _).powered
@[simp] theorem event_dstate (ch : Chip) (code sev : Nat) (tv : Option Nat) (fs : List (Nat × Nat)) : (event ch code sev tv fs).dstate = ch.dstate := (event_posts _ _ _ _ _).dstate
@[simp] theorem event_booted (ch : Chip) (code sev : Nat) (tv : Option Nat) (fs : List (Nat × Nat)) : (event ch code sev tv fs).booted = ch.booted := (event_posts _ _ _ _ _).booted
@[simp] theorem event_coreMul (ch : Chip) (code sev : Nat) (tv : Option Nat) (fs : List (Nat × Nat)) : (event ch code sev tv fs).coreMul = ch.coreMul := (event_posts _ _ _ _ _).coreMul
@[simp] theorem event_cycle (ch : Chip) (code sev : Nat) (tv : Option Nat) (fs : List (Nat × Nat)) : (event ch code sev tv fs).cycle = ch.cycle := (event_posts _ _ _ _ _).cycle
@[simp] theorem event_boots (ch : Chip) (code sev : Nat) (tv : Option Nat) (fs : List (Nat × Nat)) : (event ch code sev tv fs).boots = ch.boots := (event_posts _ _ _ _ _).boots
@[simp] theorem event_pfail (ch : Chip) (code sev : Nat) (tv : Option Nat) (fs : List (Nat × Nat)) : (event ch code sev tv fs).pfail = ch.pfail := (event_posts _ _ _ _ _).pfail
@[simp] theorem event_ports (ch : Chip) (code sev : Nat) (tv : Option Nat) (fs : List (Nat × Nat)) : (event ch code sev tv fs).ports = ch.ports := (event_posts _ _ _ _ _).ports
@[simp] theorem event_clusters (ch : Chip) (code sev : Nat) (tv : Option Nat) (fs : List (Nat × Nat)) : (event ch code sev tv fs).clusters = ch.clusters := (event_posts _ _ _ _ _).clusters
@[simp] theorem event_keys (ch : Chip) (code sev : Nat) (tv : Option Nat) (fs : List (Nat × Nat)) : (event ch code sev tv fs).keys = ch.keys := (event_posts _ _ _ _ _).keys
@[simp] theorem event_damson (ch : Chip) (code sev : Nat) (tv : Option Nat) (fs : List (Nat × Nat)) : (event ch code sev tv fs).damson = ch.damson := (event_posts _ _ _ _ _).damson
@[simp] theorem event_lines (ch : Chip) (code sev : Nat) (tv : Option Nat) (fs : List (Nat × Nat)) : (event ch code sev tv fs).lines = ch.lines := (event_posts _ _ _ _ _).lines
@[simp] theorem event_sweeps (ch : Chip) (code sev : Nat) (tv : Option Nat) (fs : List (Nat × Nat)) : (event ch code sev tv fs).sweeps = ch.sweeps := (event_posts _ _ _ _ _).sweeps
@[simp] theorem event_sweepsInv (ch : Chip) (code sev : Nat) (tv : Option Nat) (fs : List (Nat × Nat)) : (event ch code sev tv fs).sweepsInv = ch.sweepsInv := (event_posts _ _ _ _ _).sweepsInv
@[simp] theorem event_ljobs (ch : Chip) (code sev : Nat) (tv : Option Nat) (fs : List (Nat × Nat)) : (event ch code sev tv fs).ljobs = ch.ljobs := (event_posts _ _ _ _ _).ljobs
@[simp] theorem event_ranges (ch : Chip) (code sev : Nat) (tv : Option Nat) (fs : List (Nat × Nat)) : (event ch code sev tv fs).ranges = ch.ranges := (event_posts _ _ _ _ _).ranges
@[simp] theorem event_rangeNext (ch : Chip) (code sev : Nat) (tv : Option Nat) (fs : List (Nat × Nat)) : (event ch code sev tv fs).rangeNext = ch.rangeNext := (event_posts _ _ _ _ _).rangeNext
@[simp] theorem event_fetchQ (ch : Chip) (code sev : Nat) (tv : Option Nat) (fs : List (Nat × Nat)) : (event ch code sev tv fs).fetchQ = ch.fetchQ := (event_posts _ _ _ _ _).fetchQ
@[simp] theorem event_brambleEn (ch : Chip) (code sev : Nat) (tv : Option Nat) (fs : List (Nat × Nat)) : (event ch code sev tv fs).brambleEn = ch.brambleEn := (event_posts _ _ _ _ _).brambleEn
@[simp] theorem event_cfg (ch : Chip) (code sev : Nat) (tv : Option Nat) (fs : List (Nat × Nat)) : (event ch code sev tv fs).cfg = ch.cfg := (event_posts _ _ _ _ _).cfg
@[simp] theorem event_cfgOld (ch : Chip) (code sev : Nat) (tv : Option Nat) (fs : List (Nat × Nat)) : (event ch code sev tv fs).cfgOld = ch.cfgOld := (event_posts _ _ _ _ _).cfgOld
@[simp] theorem event_admitGen (ch : Chip) (code sev : Nat) (tv : Option Nat) (fs : List (Nat × Nat)) : (event ch code sev tv fs).admitGen = ch.admitGen := (event_posts _ _ _ _ _).admitGen
@[simp] theorem event_oldGen (ch : Chip) (code sev : Nat) (tv : Option Nat) (fs : List (Nat × Nat)) : (event ch code sev tv fs).oldGen = ch.oldGen := (event_posts _ _ _ _ _).oldGen
@[simp] theorem event_live2 (ch : Chip) (code sev : Nat) (tv : Option Nat) (fs : List (Nat × Nat)) : (event ch code sev tv fs).live2 = ch.live2 := (event_posts _ _ _ _ _).live2
@[simp] theorem event_tenants (ch : Chip) (code sev : Nat) (tv : Option Nat) (fs : List (Nat × Nat)) : (event ch code sev tv fs).tenants = ch.tenants := (event_posts _ _ _ _ _).tenants
@[simp] theorem event_quince (ch : Chip) (code sev : Nat) (tv : Option Nat) (fs : List (Nat × Nat)) : (event ch code sev tv fs).quince = ch.quince := (event_posts _ _ _ _ _).quince
@[simp] theorem event_rng (ch : Chip) (code sev : Nat) (tv : Option Nat) (fs : List (Nat × Nat)) : (event ch code sev tv fs).rng = ch.rng := (event_posts _ _ _ _ _).rng
@[simp] theorem event_fw (ch : Chip) (code sev : Nat) (tv : Option Nat) (fs : List (Nat × Nat)) : (event ch code sev tv fs).fw = ch.fw := (event_posts _ _ _ _ _).fw
@[simp] theorem event_flitGap (ch : Chip) (code sev : Nat) (tv : Option Nat) (fs : List (Nat × Nat)) : (event ch code sev tv fs).flitGap = ch.flitGap := (event_posts _ _ _ _ _).flitGap
@[simp] theorem event_rngStallMax (ch : Chip) (code sev : Nat) (tv : Option Nat) (fs : List (Nat × Nat)) : (event ch code sev tv fs).rngStallMax = ch.rngStallMax := (event_posts _ _ _ _ _).rngStallMax
@[simp] theorem event_authSince (ch : Chip) (code sev : Nat) (tv : Option Nat) (fs : List (Nat × Nat)) : (event ch code sev tv fs).authSince = ch.authSince := (event_posts _ _ _ _ _).authSince
@[simp] theorem event_tempWarned (ch : Chip) (code sev : Nat) (tv : Option Nat) (fs : List (Nat × Nat)) : (event ch code sev tv fs).tempWarned = ch.tempWarned := (event_posts _ _ _ _ _).tempWarned
@[simp] theorem event_trippedOnce (ch : Chip) (code sev : Nat) (tv : Option Nat) (fs : List (Nat × Nat)) : (event ch code sev tv fs).trippedOnce = ch.trippedOnce := (event_posts _ _ _ _ _).trippedOnce
@[simp] theorem event_killedAtBoot (ch : Chip) (code sev : Nat) (tv : Option Nat) (fs : List (Nat × Nat)) : (event ch code sev tv fs).killedAtBoot = ch.killedAtBoot := (event_posts _ _ _ _ _).killedAtBoot
@[simp] theorem event_admissions (ch : Chip) (code sev : Nat) (tv : Option Nat) (fs : List (Nat × Nat)) : (event ch code sev tv fs).admissions = ch.admissions := (event_posts _ _ _ _ _).admissions
@[simp] theorem event_free (ch : Chip) (code sev : Nat) (tv : Option Nat) (fs : List (Nat × Nat)) : (event ch code sev tv fs).free = ch.free := (event_posts _ _ _ _ _).free
@[simp] theorem event_faults_srcs (ch : Chip) (code sev : Nat) (tv : Option Nat) (fs : List (Nat × Nat)) : (event ch code sev tv fs).faults.srcs = ch.faults.srcs :=
  (event_posts _ _ _ _ _).faults_srcs
@[simp] theorem event_faults_sticky (ch : Chip) (code sev : Nat) (tv : Option Nat) (fs : List (Nat × Nat)) : (event ch code sev tv fs).faults.sticky = ch.faults.sticky :=
  (event_posts _ _ _ _ _).faults_sticky
@[simp] theorem event_faults_net (ch : Chip) (code sev : Nat) (tv : Option Nat) (fs : List (Nat × Nat)) : (event ch code sev tv fs).faults.net = ch.faults.net :=
  (event_posts _ _ _ _ _).faults_net
@[simp] theorem event_faults_last (ch : Chip) (code sev : Nat) (tv : Option Nat) (fs : List (Nat × Nat)) : (event ch code sev tv fs).faults.last = ch.faults.last :=
  (event_posts _ _ _ _ _).faults_last
@[simp] theorem event_faults_units (ch : Chip) (code sev : Nat) (tv : Option Nat) (fs : List (Nat × Nat)) : (event ch code sev tv fs).faults.units = ch.faults.units :=
  (event_posts _ _ _ _ _).faults_units
@[simp] theorem event_faults_settle (ch : Chip) (code sev : Nat) (tv : Option Nat) (fs : List (Nat × Nat)) : (event ch code sev tv fs).faults.settle = ch.faults.settle :=
  (event_posts _ _ _ _ _).faults_settle
@[simp] theorem event_faults_replaceLevel (ch : Chip) (code sev : Nat) (tv : Option Nat) (fs : List (Nat × Nat)) : (event ch code sev tv fs).faults.replaceLevel = ch.faults.replaceLevel :=
  (event_posts _ _ _ _ _).faults_replaceLevel
@[simp] theorem event_faults_replace (ch : Chip) (code sev : Nat) (tv : Option Nat) (fs : List (Nat × Nat)) : (event ch code sev tv fs).faults.replace = ch.faults.replace :=
  (event_posts _ _ _ _ _).faults_replace
@[simp] theorem event_faults_react (ch : Chip) (code sev : Nat) (tv : Option Nat) (fs : List (Nat × Nat)) : (event ch code sev tv fs).faults.react = ch.faults.react :=
  (event_posts _ _ _ _ _).faults_react
@[simp] theorem event_faults_cause (ch : Chip) (code sev : Nat) (tv : Option Nat) (fs : List (Nat × Nat)) : (event ch code sev tv fs).faults.cause = ch.faults.cause :=
  (event_posts _ _ _ _ _).faults_cause
@[simp] theorem event_faults_haltAt (ch : Chip) (code sev : Nat) (tv : Option Nat) (fs : List (Nat × Nat)) : (event ch code sev tv fs).faults.haltAt = ch.faults.haltAt :=
  (event_posts _ _ _ _ _).faults_haltAt
@[simp] theorem event_faults_closing (ch : Chip) (code sev : Nat) (tv : Option Nat) (fs : List (Nat × Nat)) : (event ch code sev tv fs).faults.closing = ch.faults.closing :=
  (event_posts _ _ _ _ _).faults_closing
@[simp] theorem event_faults_sweeping (ch : Chip) (code sev : Nat) (tv : Option Nat) (fs : List (Nat × Nat)) : (event ch code sev tv fs).faults.sweeping = ch.faults.sweeping :=
  (event_posts _ _ _ _ _).faults_sweeping
@[simp] theorem event_faults_quiet (ch : Chip) (code sev : Nat) (tv : Option Nat) (fs : List (Nat × Nat)) : (event ch code sev tv fs).faults.quiet = ch.faults.quiet :=
  (event_posts _ _ _ _ _).faults_quiet
@[simp] theorem event_faults_attEn (ch : Chip) (code sev : Nat) (tv : Option Nat) (fs : List (Nat × Nat)) : (event ch code sev tv fs).faults.attEn = ch.faults.attEn :=
  (event_posts _ _ _ _ _).faults_attEn

end Sys2Proof.Machine
end

