-- ==== Sys2Proof/Laws/Parts.lean ====
section
/-! SUPPORT. Writing one part of the chip changes that part and nothing else, once or after another write of the same
part. -/

namespace Sys2Proof.Machine

variable (a b : Chip)

theorem getPort_setPort (p q : Nat) (v : Port) : getPort (setPort a p v) q = if q = p then v else getPort a q :=
  Tbl.get_set _ _ _ _ _

theorem getCluster_setCluster (p q : Nat) (v : Cluster) :
    getCluster (setCluster a p v) q = if q = p then v else getCluster a q := Tbl.get_set _ _ _ _ _

theorem getLine_setLine (p q : Nat) (v : LinePort) : getLine (setLine a p v) q = if q = p then v else getLine a q :=
  Tbl.get_set _ _ _ _ _

theorem getTenant_setTenant (p q : Nat) (v : Tenant) :
    getTenant (setTenant a p v) q = if q = p then v else getTenant a q := Tbl.get_set _ _ _ _ _

theorem getRange_setRange (p q : Nat) (v : Option Range) :
    getRange (setRange a p v) q = if q = p then v else getRange a q := Tbl.get_set _ _ _ _ _

theorem getLjob_setLjob (p q : Nat) (v : Option LineJob) :
    getLjob (setLjob a p v) q = if q = p then v else getLjob a q := Tbl.get_set _ _ _ _ _

theorem getSweep_setSweep (p q : Nat) (v : Sweep) : getSweep (setSweep a p v) q = if q = p then v else getSweep a q :=
  Tbl.get_set _ _ _ _ _

theorem slotDesc_setDesc (p q : Nat) (v : BitVec 256) : slotDesc (setDesc a p v) q = if q = p then v else slotDesc a q :=
  Tbl.get_set _ _ _ _ _

theorem lineDesc_setLineDesc (p q : Nat) (v : BitVec 128) :
    lineDesc (setLineDesc a p v) q = if q = p then v else lineDesc a q := Tbl.get_set _ _ _ _ _

variable {a b}

theorem PortNow.set {p : Nat} {u : Port} (h : PortNow a b p u) (v : Port) : PortNow a (setPort b p v) p v :=
  ⟨⟨by simp [getPort_setPort], fun j hj => by simp [getPort_setPort, hj, h.1.others j hj]⟩, by
    have := h.2; unfold setPort; rw [this]⟩

theorem PortNow.refl (a : Chip) (p : Nat) : PortNow a a p (getPort a p) := ⟨⟨rfl, fun _ _ => rfl⟩, rfl⟩

theorem portNow_set (a : Chip) (p : Nat) (v : Port) : PortNow a (setPort a p v) p v := (PortNow.refl a p).set v

theorem portNow_mod (a : Chip) (p : Nat) (f : Port → Port) : PortNow a (modPort a p f) p (f (getPort a p)) :=
  portNow_set a p _

theorem PortNow.mod {p : Nat} {u : Port} (h : PortNow a b p u) (f : Port → Port) : PortNow a (modPort b p f) p (f u) := by
  have := h.set (f (getPort b p))
  rw [h.1.here] at this
  unfold modPort
  rw [h.1.here]
  exact this

theorem LineNow.refl (a : Chip) (p : Nat) : LineNow a a p (getLine a p) := ⟨⟨rfl, fun _ _ => rfl⟩, rfl⟩

theorem LineNow.mod {p : Nat} {u : LinePort} (h : LineNow a b p u) (f : LinePort → LinePort) :
    LineNow a (modLine b p f) p (f u) :=
  ⟨⟨by simp [modLine, getLine_setLine, h.1.here], fun j hj => by simp [modLine, getLine_setLine, hj, h.1.others j hj]⟩, by
    have := h.2; unfold modLine setLine; rw [this]⟩

theorem MbNow.refl (a : Chip) (p : Nat) : MbNow a a p (getMb a p) := ⟨⟨rfl, fun _ _ => rfl⟩, rfl⟩

theorem MbNow.mod {p : Nat} {u : Mailbox} (h : MbNow a b p u) (f : Mailbox → Mailbox) : MbNow a (modMb b p f) p (f u) := by
  have key : ∀ q, getMb (modMb b p f) q = if q = p then f (getMb b p) else getMb b q := fun q => Tbl.get_set _ _ _ _ _
  exact ⟨⟨by simp [key, h.1.here], fun j hj => by simp [key, hj, h.1.others j hj]⟩, by
    have := h.2; unfold modMb setMb; rw [this]⟩

theorem ClusterNow.refl (a : Chip) (p : Nat) : ClusterNow a a p (getCluster a p) := ⟨⟨rfl, fun _ _ => rfl⟩, rfl⟩

theorem ClusterNow.mod {p : Nat} {u : Cluster} (h : ClusterNow a b p u) (f : Cluster → Cluster) :
    ClusterNow a (modCluster b p f) p (f u) :=
  ⟨⟨by simp [modCluster, getCluster_setCluster, h.1.here], fun j hj => by
    simp [modCluster, getCluster_setCluster, hj, h.1.others j hj]⟩, by
    have := h.2; unfold modCluster setCluster; rw [this]⟩

theorem tenantNow_set (a : Chip) (p : Nat) (v : Tenant) : TenantNow a (setTenant a p v) p v :=
  ⟨⟨by simp [getTenant_setTenant], fun j hj => by simp [getTenant_setTenant, hj]⟩, rfl⟩

theorem rangeNow_set (a : Chip) (p : Nat) (v : Option Range) : RangeNow a (setRange a p v) p v :=
  ⟨⟨by simp [getRange_setRange], fun j hj => by simp [getRange_setRange, hj]⟩, rfl⟩

theorem ljobNow_set (a : Chip) (p : Nat) (v : Option LineJob) : LjobNow a (setLjob a p v) p v :=
  ⟨⟨by simp [getLjob_setLjob], fun j hj => by simp [getLjob_setLjob, hj]⟩, rfl⟩

theorem sweepNow_set (a : Chip) (p : Nat) (v : Sweep) : SweepNow a (setSweep a p v) p v :=
  ⟨⟨by simp [getSweep_setSweep], fun j hj => by simp [getSweep_setSweep, hj]⟩, rfl⟩

theorem descNow_set (a : Chip) (p : Nat) (v : BitVec 256) : DescNow a (setDesc a p v) p v :=
  ⟨⟨by simp [slotDesc_setDesc], fun j hj => by simp [slotDesc_setDesc, hj]⟩, rfl⟩

theorem lineDescNow_set (a : Chip) (p : Nat) (v : BitVec 128) : LineDescNow a (setLineDesc a p v) p v :=
  ⟨⟨by simp [lineDesc_setLineDesc], fun j hj => by simp [lineDesc_setLineDesc, hj]⟩, rfl⟩

/-! ### Memory banks, KEK sources and severities -/

@[simp] theorem getBank_setBank_self (fw : Fw) (n : Nat) (v : QuinceBank) : getBank (setBank fw n v) n = v := by
  unfold getBank setBank
  split <;> rfl

/-- A write of one bank leaves the other. -/
theorem getBank_setBank_other (fw : Fw) (n : Nat) (h : n < 2) (v : QuinceBank) :
    getBank (setBank fw n v) (1 - n) = getBank fw (1 - n) := by
  have : n = 0 ∨ n = 1 := by omega
  rcases this with rfl | rfl <;> rfl

@[simp] theorem setBank_bank (fw : Fw) (n : Nat) (v : QuinceBank) : (setBank fw n v).bank = fw.bank := by
  unfold setBank
  split <;> rfl
@[simp] theorem setBank_running (fw : Fw) (n : Nat) (v : QuinceBank) : (setBank fw n v).running = fw.running := by
  unfold setBank
  split <;> rfl
@[simp] theorem setBank_activate (fw : Fw) (n : Nat) (v : QuinceBank) : (setBank fw n v).activate = fw.activate := by
  unfold setBank
  split <;> rfl

@[simp] theorem noteSource_chip (s : State) (i v : Nat) : (noteSource s i v).chip = s.chip := rfl
@[simp] theorem noteSource_otp (s : State) (i v : Nat) : (noteSource s i v).otp = s.otp := rfl
@[simp] theorem noteSource_aon (s : State) (i v : Nat) : (noteSource s i v).aon = s.aon := rfl
@[simp] theorem noteSource_flash0 (s : State) (i v : Nat) : (noteSource s i v).flash0 = s.flash0 := rfl
@[simp] theorem noteSource_flash1 (s : State) (i v : Nat) : (noteSource s i v).flash1 = s.flash1 := rfl
@[simp] theorem noteSource_pending (s : State) (i v : Nat) : (noteSource s i v).pending = s.pending := rfl

/-- The severity in force lies between the index's floor and ZEROIZE in every state (R348). -/
theorem sevOf_le (ch : Chip) (ix : Nat) : sevOf ch ix ≤ 4 := Nat.min_le_left _ _

theorem floorSev_le_sevOf (ch : Chip) (ix : Nat) : floorSev ix ≤ sevOf ch ix :=
  Nat.le_min.mpr ⟨by simp only [floorSev]; (repeat' split) <;> omega, Nat.le_max_left _ _⟩

/-- One that lies there is in force as it is. -/
theorem sevOf_of_mem {ch : Chip} {ix v : Nat} (h : (getSticky ch ix).sev = some v) (lo : floorSev ix ≤ v) (hi : v ≤ 4) :
    sevOf ch ix = v := by
  simp only [sevOf, h, Option.getD_some]
  omega

end Sys2Proof.Machine
end

