-- ==== Sys2Proof/Laws/Xanette.lean ====
section
/-! SUPPORT. What Quince does with a command that it serves and that passes every check of Table 11.7: it runs the command's
own part and writes its response, or waits. -/

namespace Sys2Proof.Machine

open Sys2Proof

theorem order_of_head {l : List Nat} {a : Nat} (h : l.head? = some a) : l = a :: l.tail := by
  cases l with
  | nil => cases h
  | cons b l => simpa using h

/-- The mailbox of a command that starts: its head slot EXECUTING, its BLOB words and the key of an enrolment taken. -/
def startMb (s : State) (mb slot : Nat) : Mailbox :=
  let m := getMb s.chip mb
  let sl := Tbl.get {} m.slots slot
  { m with
    order := m.order.tail
    slots := Tbl.set {} m.slots slot { sl with st := .executing }
    blob := if takesBlob (cOpcode sl.cmd) then [] else m.blob
    newKey := if cOpcode sl.cmd = 0x0C05 && (officerOf mb).isSome then keyDataBytes m 4 else m.newKey }

/-- The mailbox and Quince's turn, with the command EXECUTING. -/
def turnChip (s : State) (mb slot : Nat) : Chip := takeTurn (setMb s.chip mb (startMb s mb slot)) mb

/-- What has run out for the officer has ended too. -/
def startChip (s : State) (mb slot : Nat) : Chip := timesEnded (turnChip s mb slot) mb

theorem takeTurn_eq (ch : Chip) (mb : Nat) : takeTurn ch mb = { ch with quince := (takeTurn ch mb).quince } := by
  unfold takeTurn
  dsimp only
  split <;> rfl

theorem setOfficer_eq (ch : Chip) (o : Nat) (v : Officer) : setOfficer ch o v = { ch with keys := (setOfficer ch o v).keys } := by
  unfold setOfficer
  split <;> rfl

theorem getOfficer_setOfficer_self (ch : Chip) (o : Nat) (v : Officer) : getOfficer (setOfficer ch o v) o = v := by
  unfold getOfficer setOfficer
  split <;> simp_all

/-- Ending a session posts, and changes the session. -/
theorem expireSession_posts (ch : Chip) :
    ∃ n, Posts { ch with keys := { ch.keys with session := n } } (expireSession ch) := by
  have hr : ch = { ch with keys := { ch.keys with session := ch.keys.session } } := rfl
  unfold expireSession endSession
  dsimp only
  split
  · split
    · exact ⟨ch.keys.session, Posts.refl ch⟩
    · exact ⟨_, ((event_posts _ _ _ _ _).trans (attRaise_posts _ _ _)).trans (attRaise_posts _ _ _)⟩
  · exact ⟨ch.keys.session, Posts.refl ch⟩

/-- An officer after the time of a lockout has been looked at. -/
def lockLooked (now : Nat) (f : Officer) : Officer :=
  match f.lockUntil with
  | some t => if t ≤ now then { f with lockUntil := none, fails := 0 } else f
  | none => f

theorem lockoutOver_keys (ch : Chip) (o : Nat) : lockoutOver ch o = { ch with keys := (lockoutOver ch o).keys } := by
  unfold lockoutOver
  dsimp only
  split
  · split
    · rw [setOfficer_eq]
    · rfl
  · rfl

theorem lockoutOver_self (ch : Chip) (o : Nat) : getOfficer (lockoutOver ch o) o = lockLooked (nowUs ch) (getOfficer ch o) := by
  have h : lockoutOver ch o = setOfficer ch o (lockLooked (nowUs ch) (getOfficer ch o)) ∨
      (lockoutOver ch o = ch ∧ lockLooked (nowUs ch) (getOfficer ch o) = getOfficer ch o) := by
    unfold lockoutOver lockLooked
    cases hl : (getOfficer ch o).lockUntil with
    | none => right; simp [hl]
    | some t =>
      by_cases ht : t ≤ nowUs ch
      · left; simp [hl, ht]
      · right; simp [hl, ht]
  rcases h with h | ⟨h, h'⟩
  · rw [h, getOfficer_setOfficer_self]
  · rw [h, h']

@[simp] theorem lockLooked_count (now : Nat) (f : Officer) : (lockLooked now f).count = f.count := by
  unfold lockLooked; split
  · split <;> rfl
  · rfl
@[simp] theorem lockLooked_nonce (now : Nat) (f : Officer) : (lockLooked now f).nonce = f.nonce := by
  unfold lockLooked; split
  · split <;> rfl
  · rfl
@[simp] theorem lockLooked_key (now : Nat) (f : Officer) : (lockLooked now f).key = f.key := by
  unfold lockLooked; split
  · split <;> rfl
  · rfl
@[simp] theorem lockLooked_enrolled (now : Nat) (f : Officer) : (lockLooked now f).enrolled = f.enrolled := by
  unfold lockLooked; split
  · split <;> rfl
  · rfl

theorem lockLooked_until (now : Nat) (f : Officer) (h : ∀ e, f.lockUntil = some e → e ≤ now) :
    (lockLooked now f).lockUntil = none := by
  unfold lockLooked
  split
  · rename_i t ht
    rw [if_pos (h t ht)]
  · rename_i ht
    exact ht

/-- What a start leaves of the chip: posts, the keys of sessions and officers, the mailbox and Quince's turn change. -/
structure Starts (a b : Chip) (mb slot : Nat) (s : State) : Prop where
  fw : b.fw = a.fw
  rng : b.rng = a.rng
  react : b.faults.react = a.faults.react
  cycle : b.cycle = a.cycle
  coreMul : b.coreMul = a.coreMul
  tenants : b.tenants = a.tenants
  keyData : ∀ i, (getMb b i).keyData = (getMb a i).keyData
  officer : ∀ o, officerOf mb = some o → getOfficer b o = lockLooked (nowUs a) (getOfficer a o)

theorem turnChip_eq (s : State) (mb slot : Nat) :
    turnChip s mb slot = { s.chip with mbs := (turnChip s mb slot).mbs, quince := (turnChip s mb slot).quince } := by
  unfold turnChip
  dsimp only
  rw [takeTurn_eq]
  rfl

theorem getMb_turnChip (s : State) (mb slot i : Nat) :
    getMb (turnChip s mb slot) i = if i = mb then startMb s mb slot else getMb s.chip i := by
  have hm : (turnChip s mb slot).mbs = (setMb s.chip mb (startMb s mb slot)).mbs := by unfold turnChip; rw [takeTurn_eq]
  have h : getMb (turnChip s mb slot) i = getMb (setMb s.chip mb (startMb s mb slot)) i :=
    congrArg (fun t => Tbl.get ({} : Mailbox) t i) hm
  rw [h, getMb_setMb]

theorem turnChip_keyData (s : State) (mb slot i : Nat) :
    (getMb (turnChip s mb slot) i).keyData = (getMb s.chip i).keyData := by
  rw [getMb_turnChip]
  split
  · rename_i hi
    subst hi
    rfl
  · rfl

theorem startChip_starts (s : State) (mb slot : Nat) : Starts s.chip (startChip s mb slot) mb slot s := by
  have ht := turnChip_eq s mb slot
  unfold startChip timesEnded
  cases hO : officerOf mb with
  | none =>
    refine ⟨?_, ?_, ?_, ?_, ?_, ?_, turnChip_keyData s mb slot, fun o h => by rw [hO] at h; cases h⟩ <;>
      dsimp only <;> rw [ht]
  | some o =>
    obtain ⟨n, hp⟩ := expireSession_posts (turnChip s mb slot)
    have hl := lockoutOver_keys (expireSession (turnChip s mb slot)) o
    have hn : nowUs (expireSession (turnChip s mb slot)) = nowUs s.chip := by
      unfold nowUs usCycles; rw [hp.cycle, hp.coreMul, ht]
    have hoff : getOfficer (expireSession (turnChip s mb slot)) o = getOfficer s.chip o := by
      unfold getOfficer; rw [hp.keys, ht]
    dsimp only
    refine ⟨?_, ?_, ?_, ?_, ?_, ?_, fun i => ?_, fun o' h => ?_⟩
    · rw [hl, hp.fw, ht]
    · rw [hl, hp.rng, ht]
    · rw [hl]; dsimp only; rw [hp.faults_react, ht]
    · rw [hl, hp.cycle, ht]
    · rw [hl, hp.coreMul, ht]
    · rw [hl, hp.tenants, ht]
    · have e : getMb (lockoutOver (expireSession (turnChip s mb slot)) o) i = getMb (expireSession (turnChip s mb slot)) i := by
        unfold getMb; rw [hl]
      rw [e, hp.mbs i, ← turnChip_keyData s mb slot i]
      rfl
    · rw [hO] at h
      cases Option.some.inj h
      rw [lockoutOver_self, hn, hoff]

theorem authKey_start (s : State) (mb slot o op : Nat) (h : officerOf mb = some o) :
    authKey (startChip s mb slot) o op = authKey s.chip o op := by
  have hs := startChip_starts s mb slot
  have hd : keyDataBytes (getMb (startChip s mb slot) (1025 + o)) 4 = keyDataBytes (getMb s.chip (1025 + o)) 4 := by
    unfold keyDataBytes
    rw [hs.keyData]
  unfold authKey
  simp only [hs.officer o h, lockLooked_enrolled, lockLooked_key, hd]

theorem early_none (s : State) (mb slot op : Nat) (cmd : CommandWord) (h : Served s mb slot op cmd) :
    earlyChecks { s with chip := startChip s mb slot } mb cmd = none := by
  obtain ⟨i, hi, _, hh⟩ := h.info
  have hop : opInfo (cOpcode cmd) = some i := by rw [h.opcode]; exact hi
  have hs := startChip_starts s mb slot
  have hr : (startChip s mb slot).fw = s.chip.fw := hs.fw
  have hf : halted (startChip s mb slot) = halted s.chip := by unfold halted; rw [hs.react]
  have hg : (startChip s mb slot).rng = s.chip.rng := hs.rng
  unfold earlyChecks
  simp only [hr, hf, hg, h.rom, h.handover, hop, Bool.false_and, Bool.false_eq_true, if_false]
  have h1 : (halted s.chip && !i.served) = false := by
    cases hb : halted s.chip
    · rfl
    · simp [hh hb]
  have h2 : (decide (mb = 1027) && s.otp.locked) = false := by
    by_cases hm : mb = 1027
    · simp [h.factory hm]
    · simp [hm]
  rw [h1, h2]
  simp only [Bool.false_eq_true, if_false]
  cases hO : officerOf mb with
  | none => rfl
  | some o =>
    have ha := h.officer o hO
    have hu := lockLooked_until (nowUs s.chip) (getOfficer s.chip o) ha.unlocked
    simp only [ha.seeded, Bool.not_true, Bool.false_eq_true, if_false, hs.officer o hO, hu]

theorem later_none (s : State) (ch : Chip) (mb slot op : Nat) (cmd : CommandWord) (h : Served s mb slot op cmd)
    (ht : ch.tenants = s.chip.tenants) : laterChecks ch mb cmd = none := by
  obtain ⟨i, hi, hm, _⟩ := h.info
  have hop : opInfo (cOpcode cmd) = some i := by rw [h.opcode]; exact hi
  unfold laterChecks
  have h0 : (cb cmd 4 12 != 0 || ((officerOf mb).isNone && cb cmd 0x70 16 != 0)) = false := by
    rw [h.header.1]
    cases hO : officerOf mb with
    | none => simp [h.header.2 hO]
    | some o => simp
  simp only [h0, Bool.false_eq_true, if_false, hop, hm, Bool.not_true]
  split
  · rename_i hmb
    have := h.tenant hmb
    have hg : tenantRefusal ch mb (cOpcode cmd) = tenantRefusal s.chip mb op := by
      unfold tenantRefusal getTenant
      rw [ht, h.opcode]
    rw [hg, this]
    rfl
  · rfl

/-- Consuming a challenge draws from the random unit and changes the officer's page, and nothing else (R252). -/
theorem consumeChallenge_eq (ch : Chip) (o : Nat) :
    consumeChallenge ch o =
      { ch with keys := (consumeChallenge ch o).keys, rng := (consumeChallenge ch o).rng } := by
  unfold consumeChallenge
  dsimp only
  split
  · rw [setOfficer_eq]
  · rw [setOfficer_eq]
    rfl

/-- The state in which a command's own part runs, by its start. -/
theorem started_eq (s : State) (mb slot : Nat) :
    started s mb slot =
      match officerOf mb with
      | none => { s with chip := startChip s mb slot }
      | some o =>
        let ch := consumeChallenge (startChip s mb slot) o
        { s with chip := setOfficer ch o { getOfficer ch o with fails := 0 } } := rfl

/-- A served command runs its own part in `started`, and is answered or waits. -/
theorem runCommand_served (s : State) (mb slot op : Nat) (cmd : CommandWord) (want : Nat → Bool)
    (fields : List (Nat × Nat)) (own : State → Call → State × Act) (h : Served s mb slot op cmd) (hw : want op = true)
    (hp : paramsOk cmd fields = true) :
    runCommand s mb want fields own =
      match own (started s mb slot) (callOf s mb slot) with
      | (t, .reply r) => answered s mb slot t r
      | (t, .wait w) => waiting s mb slot t w := by
  have hcmd : (Tbl.get ({} : MbSlot) (getMb s.chip mb).slots slot).cmd = cmd := h.word
  have horder := order_of_head h.head
  have hguard : (!serving s.chip || nextMailbox s.chip != some mb ||
      !want (cOpcode (Tbl.get ({} : MbSlot) (getMb s.chip mb).slots slot).cmd)) = false := by
    rw [hcmd, h.opcode, h.serving, h.turn, hw]; simp
  have hearly := early_none s mb slot op cmd h
  have hs : ∀ rest, (getMb s.chip mb).order = slot :: rest → takeTurn (setMb s.chip mb
      { getMb s.chip mb with
        order := rest
        slots := Tbl.set {} (getMb s.chip mb).slots slot
          { (Tbl.get ({} : MbSlot) (getMb s.chip mb).slots slot) with st := SlotState.executing }
        blob := if takesBlob (cOpcode (Tbl.get ({} : MbSlot) (getMb s.chip mb).slots slot).cmd) then []
                else (getMb s.chip mb).blob
        newKey := if cOpcode (Tbl.get ({} : MbSlot) (getMb s.chip mb).slots slot).cmd = 0x0C05 && (officerOf mb).isSome then
                    keyDataBytes (getMb s.chip mb) 4
                  else (getMb s.chip mb).newKey }) mb = turnChip s mb slot := by
    intro rest hr
    simp only [turnChip, startMb, hr, List.tail_cons]
  unfold runCommand
  dsimp only
  split
  · rename_i h0
    rw [h0] at horder
    cases horder
  · rename_i a rest hr
    have ha : a = slot := by rw [hr] at horder; exact (List.cons.inj horder).1
    subst ha
    rw [hguard, hs rest hr]
    simp only [show timesEnded (turnChip s mb a) mb = startChip s mb a from rfl, hcmd, Bool.false_eq_true, if_false, hearly]
    cases hO : officerOf mb with
    | none =>
      have hlater := later_none s (startChip s mb a) mb a op cmd h (startChip_starts s mb a).tenants
      have hst : started s mb a = { s with chip := startChip s mb a } := by
        rw [started_eq, hO]
      have hx : executing s mb a =
          { mb := mb, slot := a, wait := .flush 0, chal := none, ccount := 0, dropped := false } := by
        unfold executing; simp only [hO]
      have hcall : callOf s mb a =
          ⟨mb, a, cmd, if takesBlob (cOpcode cmd) then (getMb s.chip mb).blob else [], none, 0, 0⟩ := by
        unfold callOf; simp only [hx, hcmd, hO]
      simp only [hlater, hp, Bool.not_true, Bool.false_eq_true, if_false, hst, hcall, answered, waiting, hx]
      all_goals
        generalize own _ _ = out
        obtain ⟨t, act⟩ := out
        cases act <;> rfl
    | some o =>
      have ha := h.officer o hO
      obtain ⟨k, hk⟩ := Option.isSome_iff_exists.1 ha.key
      have hsc := startChip_starts s mb a
      have hoff := hsc.officer o hO
      have hchal : challengeOf (getOfficer (startChip s mb a) o) = challengeOf (getOfficer s.chip o) := by
        unfold challengeOf; rw [hoff, lockLooked_count, lockLooked_nonce]
      have hcount : (getOfficer (startChip s mb a) o).count = (getOfficer s.chip o).count := by
        rw [hoff, lockLooked_count]
      have henr : (getOfficer (startChip s mb a) o).enrolled = (getOfficer s.chip o).enrolled := by
        rw [hoff, lockLooked_enrolled]
      have hfails : (getOfficer (startChip s mb a) o).fails = (getOfficer (lockoutOver s.chip o) o).fails := by
        rw [hoff, lockoutOver_self]
      have hkey : authKey (startChip s mb a) o (cOpcode cmd) = some k := by rw [authKey_start s mb a o _ hO]; exact hk
      have hmac := ha.mac k hk
      let ch1 := consumeChallenge (startChip s mb a) o
      let ch2 := setOfficer ch1 o { getOfficer ch1 o with fails := 0 }
      have hlater := later_none s ch2 mb a op cmd h (by
        have e1 : ch1.tenants = (startChip s mb a).tenants := by
          rw [show ch1 = consumeChallenge (startChip s mb a) o from rfl, consumeChallenge_eq]
        have e2 : ch2.tenants = ch1.tenants := by rw [show ch2 = setOfficer ch1 o _ from rfl, setOfficer_eq]
        rw [e2, e1, hsc.tenants])
      have hst : started s mb a = { s with chip := ch2 } := by
        rw [started_eq, hO]
      have hx : executing s mb a = ⟨mb, a, .flush 0, some (challengeOf (getOfficer s.chip o), !(getOfficer s.chip o).enrolled),
          (getOfficer s.chip o).count, false⟩ := by
        unfold executing; simp only [hO]
      have hcall : callOf s mb a = ⟨mb, a, cmd, if takesBlob (cOpcode cmd) then (getMb s.chip mb).blob else [],
          some (challengeOf (getOfficer s.chip o), !(getOfficer s.chip o).enrolled), (getOfficer s.chip o).count,
          (getOfficer (lockoutOver s.chip o) o).fails⟩ := by
        unfold callOf; simp only [hx, hcmd, hO]
      simp only [hchal, hcount, hfails, henr, hkey, hmac, decide_true, Bool.or_true, if_true]
      simp only [show setOfficer (consumeChallenge (startChip s mb a) o) o
        { getOfficer (consumeChallenge (startChip s mb a) o) o with fails := 0 } = ch2 from rfl]
      simp only [hlater, hp, Bool.not_true, Bool.false_eq_true, if_false, hst, hcall, answered, waiting, hx]
      all_goals
        generalize own _ _ = out
        obtain ⟨t, act⟩ := out
        cases act <;> rfl

end Sys2Proof.Machine
end

