-- ==== Sys2Proof/Laws/Responses.lean ====
section
/-! SUPPORT. What writing a response and starting a command leave as they were, and what the response then reads. -/

namespace Sys2Proof.Machine

/-! ### Writing a response -/

/-- The chip with one mailbox written anew; what else the response changes is the attention queue. -/
theorem writeResponse_posts (ch : Chip) (x : Executing) (r : Reply) :
    ∃ m, Posts (setMb ch x.mb m) (writeResponse ch x r) := by
  unfold writeResponse
  extract_lets m sl op m2 officer res body resp done
  split
  · exact ⟨_, Posts.refl _⟩
  · exact ⟨_, attRaise_posts _ _ _⟩

@[simp] theorem writeResponse_powered (ch : Chip) (x : Executing) (r : Reply) : (writeResponse ch x r).powered = ch.powered := by
  obtain ⟨m, h⟩ := writeResponse_posts ch x r
  exact h.powered
@[simp] theorem writeResponse_dstate (ch : Chip) (x : Executing) (r : Reply) : (writeResponse ch x r).dstate = ch.dstate := by
  obtain ⟨m, h⟩ := writeResponse_posts ch x r
  exact h.dstate
@[simp] theorem writeResponse_booted (ch : Chip) (x : Executing) (r : Reply) : (writeResponse ch x r).booted = ch.booted := by
  obtain ⟨m, h⟩ := writeResponse_posts ch x r
  exact h.booted
@[simp] theorem writeResponse_coreMul (ch : Chip) (x : Executing) (r : Reply) : (writeResponse ch x r).coreMul = ch.coreMul := by
  obtain ⟨m, h⟩ := writeResponse_posts ch x r
  exact h.coreMul
@[simp] theorem writeResponse_cycle (ch : Chip) (x : Executing) (r : Reply) : (writeResponse ch x r).cycle = ch.cycle := by
  obtain ⟨m, h⟩ := writeResponse_posts ch x r
  exact h.cycle
@[simp] theorem writeResponse_boots (ch : Chip) (x : Executing) (r : Reply) : (writeResponse ch x r).boots = ch.boots := by
  obtain ⟨m, h⟩ := writeResponse_posts ch x r
  exact h.boots
@[simp] theorem writeResponse_pfail (ch : Chip) (x : Executing) (r : Reply) : (writeResponse ch x r).pfail = ch.pfail := by
  obtain ⟨m, h⟩ := writeResponse_posts ch x r
  exact h.pfail
@[simp] theorem writeResponse_ports (ch : Chip) (x : Executing) (r : Reply) : (writeResponse ch x r).ports = ch.ports := by
  obtain ⟨m, h⟩ := writeResponse_posts ch x r
  exact h.ports
@[simp] theorem writeResponse_clusters (ch : Chip) (x : Executing) (r : Reply) : (writeResponse ch x r).clusters = ch.clusters := by
  obtain ⟨m, h⟩ := writeResponse_posts ch x r
  exact h.clusters
@[simp] theorem writeResponse_keys (ch : Chip) (x : Executing) (r : Reply) : (writeResponse ch x r).keys = ch.keys := by
  obtain ⟨m, h⟩ := writeResponse_posts ch x r
  exact h.keys
@[simp] theorem writeResponse_damson (ch : Chip) (x : Executing) (r : Reply) : (writeResponse ch x r).damson = ch.damson := by
  obtain ⟨m, h⟩ := writeResponse_posts ch x r
  exact h.damson
@[simp] theorem writeResponse_lines (ch : Chip) (x : Executing) (r : Reply) : (writeResponse ch x r).lines = ch.lines := by
  obtain ⟨m, h⟩ := writeResponse_posts ch x r
  exact h.lines
@[simp] theorem writeResponse_sweeps (ch : Chip) (x : Executing) (r : Reply) : (writeResponse ch x r).sweeps = ch.sweeps := by
  obtain ⟨m, h⟩ := writeResponse_posts ch x r
  exact h.sweeps
@[simp] theorem writeResponse_sweepsInv (ch : Chip) (x : Executing) (r : Reply) : (writeResponse ch x r).sweepsInv = ch.sweepsInv := by
  obtain ⟨m, h⟩ := writeResponse_posts ch x r
  exact h.sweepsInv
@[simp] theorem writeResponse_ljobs (ch : Chip) (x : Executing) (r : Reply) : (writeResponse ch x r).ljobs = ch.ljobs := by
  obtain ⟨m, h⟩ := writeResponse_posts ch x r
  exact h.ljobs
@[simp] theorem writeResponse_ranges (ch : Chip) (x : Executing) (r : Reply) : (writeResponse ch x r).ranges = ch.ranges := by
  obtain ⟨m, h⟩ := writeResponse_posts ch x r
  exact h.ranges
@[simp] theorem writeResponse_rangeNext (ch : Chip) (x : Executing) (r : Reply) : (writeResponse ch x r).rangeNext = ch.rangeNext := by
  obtain ⟨m, h⟩ := writeResponse_posts ch x r
  exact h.rangeNext
@[simp] theorem writeResponse_fetchQ (ch : Chip) (x : Executing) (r : Reply) : (writeResponse ch x r).fetchQ = ch.fetchQ := by
  obtain ⟨m, h⟩ := writeResponse_posts ch x r
  exact h.fetchQ
@[simp] theorem writeResponse_brambleEn (ch : Chip) (x : Executing) (r : Reply) : (writeResponse ch x r).brambleEn = ch.brambleEn := by
  obtain ⟨m, h⟩ := writeResponse_posts ch x r
  exact h.brambleEn
@[simp] theorem writeResponse_cfg (ch : Chip) (x : Executing) (r : Reply) : (writeResponse ch x r).cfg = ch.cfg := by
  obtain ⟨m, h⟩ := writeResponse_posts ch x r
  exact h.cfg
@[simp] theorem writeResponse_cfgOld (ch : Chip) (x : Executing) (r : Reply) : (writeResponse ch x r).cfgOld = ch.cfgOld := by
  obtain ⟨m, h⟩ := writeResponse_posts ch x r
  exact h.cfgOld
@[simp] theorem writeResponse_admitGen (ch : Chip) (x : Executing) (r : Reply) : (writeResponse ch x r).admitGen = ch.admitGen := by
  obtain ⟨m, h⟩ := writeResponse_posts ch x r
  exact h.admitGen
@[simp] theorem writeResponse_oldGen (ch : Chip) (x : Executing) (r : Reply) : (writeResponse ch x r).oldGen = ch.oldGen := by
  obtain ⟨m, h⟩ := writeResponse_posts ch x r
  exact h.oldGen
@[simp] theorem writeResponse_live2 (ch : Chip) (x : Executing) (r : Reply) : (writeResponse ch x r).live2 = ch.live2 := by
  obtain ⟨m, h⟩ := writeResponse_posts ch x r
  exact h.live2
@[simp] theorem writeResponse_tenants (ch : Chip) (x : Executing) (r : Reply) : (writeResponse ch x r).tenants = ch.tenants := by
  obtain ⟨m, h⟩ := writeResponse_posts ch x r
  exact h.tenants
@[simp] theorem writeResponse_quince (ch : Chip) (x : Executing) (r : Reply) : (writeResponse ch x r).quince = ch.quince := by
  obtain ⟨m, h⟩ := writeResponse_posts ch x r
  exact h.quince
@[simp] theorem writeResponse_rng (ch : Chip) (x : Executing) (r : Reply) : (writeResponse ch x r).rng = ch.rng := by
  obtain ⟨m, h⟩ := writeResponse_posts ch x r
  exact h.rng
@[simp] theorem writeResponse_fw (ch : Chip) (x : Executing) (r : Reply) : (writeResponse ch x r).fw = ch.fw := by
  obtain ⟨m, h⟩ := writeResponse_posts ch x r
  exact h.fw
@[simp] theorem writeResponse_flitGap (ch : Chip) (x : Executing) (r : Reply) : (writeResponse ch x r).flitGap = ch.flitGap := by
  obtain ⟨m, h⟩ := writeResponse_posts ch x r
  exact h.flitGap
@[simp] theorem writeResponse_rngStallMax (ch : Chip) (x : Executing) (r : Reply) : (writeResponse ch x r).rngStallMax = ch.rngStallMax := by
  obtain ⟨m, h⟩ := writeResponse_posts ch x r
  exact h.rngStallMax
@[simp] theorem writeResponse_authSince (ch : Chip) (x : Executing) (r : Reply) : (writeResponse ch x r).authSince = ch.authSince := by
  obtain ⟨m, h⟩ := writeResponse_posts ch x r
  exact h.authSince
@[simp] theorem writeResponse_tempWarned (ch : Chip) (x : Executing) (r : Reply) : (writeResponse ch x r).tempWarned = ch.tempWarned := by
  obtain ⟨m, h⟩ := writeResponse_posts ch x r
  exact h.tempWarned
@[simp] theorem writeResponse_trippedOnce (ch : Chip) (x : Executing) (r : Reply) : (writeResponse ch x r).trippedOnce = ch.trippedOnce := by
  obtain ⟨m, h⟩ := writeResponse_posts ch x r
  exact h.trippedOnce
@[simp] theorem writeResponse_killedAtBoot (ch : Chip) (x : Executing) (r : Reply) : (writeResponse ch x r).killedAtBoot = ch.killedAtBoot := by
  obtain ⟨m, h⟩ := writeResponse_posts ch x r
  exact h.killedAtBoot
@[simp] theorem writeResponse_admissions (ch : Chip) (x : Executing) (r : Reply) : (writeResponse ch x r).admissions = ch.admissions := by
  obtain ⟨m, h⟩ := writeResponse_posts ch x r
  exact h.admissions
@[simp] theorem writeResponse_free (ch : Chip) (x : Executing) (r : Reply) : (writeResponse ch x r).free = ch.free := by
  obtain ⟨m, h⟩ := writeResponse_posts ch x r
  exact h.free
@[simp] theorem writeResponse_faults_srcs (ch : Chip) (x : Executing) (r : Reply) :
    (writeResponse ch x r).faults.srcs = ch.faults.srcs := by
  obtain ⟨m, h⟩ := writeResponse_posts ch x r
  exact h.faults_srcs
@[simp] theorem writeResponse_faults_sticky (ch : Chip) (x : Executing) (r : Reply) :
    (writeResponse ch x r).faults.sticky = ch.faults.sticky := by
  obtain ⟨m, h⟩ := writeResponse_posts ch x r
  exact h.faults_sticky
@[simp] theorem writeResponse_faults_net (ch : Chip) (x : Executing) (r : Reply) :
    (writeResponse ch x r).faults.net = ch.faults.net := by
  obtain ⟨m, h⟩ := writeResponse_posts ch x r
  exact h.faults_net
@[simp] theorem writeResponse_faults_last (ch : Chip) (x : Executing) (r : Reply) :
    (writeResponse ch x r).faults.last = ch.faults.last := by
  obtain ⟨m, h⟩ := writeResponse_posts ch x r
  exact h.faults_last
@[simp] theorem writeResponse_faults_units (ch : Chip) (x : Executing) (r : Reply) :
    (writeResponse ch x r).faults.units = ch.faults.units := by
  obtain ⟨m, h⟩ := writeResponse_posts ch x r
  exact h.faults_units
@[simp] theorem writeResponse_faults_settle (ch : Chip) (x : Executing) (r : Reply) :
    (writeResponse ch x r).faults.settle = ch.faults.settle := by
  obtain ⟨m, h⟩ := writeResponse_posts ch x r
  exact h.faults_settle
@[simp] theorem writeResponse_faults_replaceLevel (ch : Chip) (x : Executing) (r : Reply) :
    (writeResponse ch x r).faults.replaceLevel = ch.faults.replaceLevel := by
  obtain ⟨m, h⟩ := writeResponse_posts ch x r
  exact h.faults_replaceLevel
@[simp] theorem writeResponse_faults_replace (ch : Chip) (x : Executing) (r : Reply) :
    (writeResponse ch x r).faults.replace = ch.faults.replace := by
  obtain ⟨m, h⟩ := writeResponse_posts ch x r
  exact h.faults_replace
@[simp] theorem writeResponse_faults_react (ch : Chip) (x : Executing) (r : Reply) :
    (writeResponse ch x r).faults.react = ch.faults.react := by
  obtain ⟨m, h⟩ := writeResponse_posts ch x r
  exact h.faults_react
@[simp] theorem writeResponse_faults_cause (ch : Chip) (x : Executing) (r : Reply) :
    (writeResponse ch x r).faults.cause = ch.faults.cause := by
  obtain ⟨m, h⟩ := writeResponse_posts ch x r
  exact h.faults_cause
@[simp] theorem writeResponse_faults_haltAt (ch : Chip) (x : Executing) (r : Reply) :
    (writeResponse ch x r).faults.haltAt = ch.faults.haltAt := by
  obtain ⟨m, h⟩ := writeResponse_posts ch x r
  exact h.faults_haltAt
@[simp] theorem writeResponse_faults_closing (ch : Chip) (x : Executing) (r : Reply) :
    (writeResponse ch x r).faults.closing = ch.faults.closing := by
  obtain ⟨m, h⟩ := writeResponse_posts ch x r
  exact h.faults_closing
@[simp] theorem writeResponse_faults_sweeping (ch : Chip) (x : Executing) (r : Reply) :
    (writeResponse ch x r).faults.sweeping = ch.faults.sweeping := by
  obtain ⟨m, h⟩ := writeResponse_posts ch x r
  exact h.faults_sweeping
@[simp] theorem writeResponse_faults_quiet (ch : Chip) (x : Executing) (r : Reply) :
    (writeResponse ch x r).faults.quiet = ch.faults.quiet := by
  obtain ⟨m, h⟩ := writeResponse_posts ch x r
  exact h.faults_quiet
@[simp] theorem writeResponse_faults_attEn (ch : Chip) (x : Executing) (r : Reply) :
    (writeResponse ch x r).faults.attEn = ch.faults.attEn := by
  obtain ⟨m, h⟩ := writeResponse_posts ch x r
  exact h.faults_attEn

theorem writeResponse_other (ch : Chip) (x : Executing) (r : Reply) (i : Nat) (hi : i ≠ x.mb) :
    getMb (writeResponse ch x r) i = { getMb ch i with attPend := (getMb (writeResponse ch x r) i).attPend } := by
  obtain ⟨m, h⟩ := writeResponse_posts ch x r
  have := h.mbs i
  rw [getMb_setMb, if_neg hi] at this
  exact this

/-- The slot of a response that no reset discarded. -/
theorem writeResponse_slot (ch : Chip) (x : Executing) (r : Reply) (hd : x.dropped = false) :
    ∃ mac, Tbl.get ({} : MbSlot) (getMb (writeResponse ch x r) x.mb).slots x.slot =
      { Tbl.get ({} : MbSlot) (getMb ch x.mb).slots x.slot with
        st := .done
        resp := mkResp (cOpcode (Tbl.get ({} : MbSlot) (getMb ch x.mb).slots x.slot).cmd)
            (cb (Tbl.get ({} : MbSlot) (getMb ch x.mb).slots x.slot).cmd 2 2) r.status r.detail r.job
            (if (officerOf x.mb).isSome then x.ccount else 0)
            (if (officerOf x.mb).isSome then r.result % 2 ^ 256 else r.result) |||
          BitVec.ofNat 512 (putAt 0x30 16 mac) } ∧ ((officerOf x.mb).isNone → x.chal = none → mac = 0) := by
  unfold writeResponse
  extract_lets m sl op m2 officer res body resp done src
  rw [hd]
  simp only [Bool.false_eq_true, if_false]
  have hslots : ∀ v, (getMb (attRaise (setMb ch x.mb v) x.mb 1) x.mb).slots = v.slots := by
    intro v
    rw [(attRaise_posts _ _ _).mbs x.mb, getMb_setMb_self]
  have hsl : Tbl.get ({} : MbSlot) (getMb (attRaise (setMb ch x.mb { m2 with slots := Tbl.set {} m2.slots x.slot done })
      x.mb 1) x.mb).slots x.slot = done := by
    rw [hslots]
    exact Tbl.get_set_self ({} : MbSlot) m2.slots x.slot done
  rw [hsl]
  exact ⟨rmacOf ch x.mb x.chal body, rfl, fun _ hc => by rw [hc]; rfl⟩

/-! ### The response to a served command -/

@[simp] theorem answered_powered (s : State) (mb slot : Nat) (t : State) (r : Reply) :
    (answered s mb slot t r).chip.powered = t.chip.powered := writeResponse_powered _ _ _
@[simp] theorem answered_dstate (s : State) (mb slot : Nat) (t : State) (r : Reply) :
    (answered s mb slot t r).chip.dstate = t.chip.dstate := writeResponse_dstate _ _ _
@[simp] theorem answered_booted (s : State) (mb slot : Nat) (t : State) (r : Reply) :
    (answered s mb slot t r).chip.booted = t.chip.booted := writeResponse_booted _ _ _
@[simp] theorem answered_coreMul (s : State) (mb slot : Nat) (t : State) (r : Reply) :
    (answered s mb slot t r).chip.coreMul = t.chip.coreMul := writeResponse_coreMul _ _ _
@[simp] theorem answered_cycle (s : State) (mb slot : Nat) (t : State) (r : Reply) :
    (answered s mb slot t r).chip.cycle = t.chip.cycle := writeResponse_cycle _ _ _
@[simp] theorem answered_boots (s : State) (mb slot : Nat) (t : State) (r : Reply) :
    (answered s mb slot t r).chip.boots = t.chip.boots := writeResponse_boots _ _ _
@[simp] theorem answered_pfail (s : State) (mb slot : Nat) (t : State) (r : Reply) :
    (answered s mb slot t r).chip.pfail = t.chip.pfail := writeResponse_pfail _ _ _
@[simp] theorem answered_ports (s : State) (mb slot : Nat) (t : State) (r : Reply) :
    (answered s mb slot t r).chip.ports = t.chip.ports := writeResponse_ports _ _ _
@[simp] theorem answered_clusters (s : State) (mb slot : Nat) (t : State) (r : Reply) :
    (answered s mb slot t r).chip.clusters = t.chip.clusters := writeResponse_clusters _ _ _
@[simp] theorem answered_keys (s : State) (mb slot : Nat) (t : State) (r : Reply) :
    (answered s mb slot t r).chip.keys = t.chip.keys := writeResponse_keys _ _ _
@[simp] theorem answered_damson (s : State) (mb slot : Nat) (t : State) (r : Reply) :
    (answered s mb slot t r).chip.damson = t.chip.damson := writeResponse_damson _ _ _
@[simp] theorem answered_lines (s : State) (mb slot : Nat) (t : State) (r : Reply) :
    (answered s mb slot t r).chip.lines = t.chip.lines := writeResponse_lines _ _ _
@[simp] theorem answered_sweeps (s : State) (mb slot : Nat) (t : State) (r : Reply) :
    (answered s mb slot t r).chip.sweeps = t.chip.sweeps := writeResponse_sweeps _ _ _
@[simp] theorem answered_sweepsInv (s : State) (mb slot : Nat) (t : State) (r : Reply) :
    (answered s mb slot t r).chip.sweepsInv = t.chip.sweepsInv := writeResponse_sweepsInv _ _ _
@[simp] theorem answered_ljobs (s : State) (mb slot : Nat) (t : State) (r : Reply) :
    (answered s mb slot t r).chip.ljobs = t.chip.ljobs := writeResponse_ljobs _ _ _
@[simp] theorem answered_ranges (s : State) (mb slot : Nat) (t : State) (r : Reply) :
    (answered s mb slot t r).chip.ranges = t.chip.ranges := writeResponse_ranges _ _ _
@[simp] theorem answered_rangeNext (s : State) (mb slot : Nat) (t : State) (r : Reply) :
    (answered s mb slot t r).chip.rangeNext = t.chip.rangeNext := writeResponse_rangeNext _ _ _
@[simp] theorem answered_fetchQ (s : State) (mb slot : Nat) (t : State) (r : Reply) :
    (answered s mb slot t r).chip.fetchQ = t.chip.fetchQ := writeResponse_fetchQ _ _ _
@[simp] theorem answered_brambleEn (s : State) (mb slot : Nat) (t : State) (r : Reply) :
    (answered s mb slot t r).chip.brambleEn = t.chip.brambleEn := writeResponse_brambleEn _ _ _
@[simp] theorem answered_cfg (s : State) (mb slot : Nat) (t : State) (r : Reply) :
    (answered s mb slot t r).chip.cfg = t.chip.cfg := writeResponse_cfg _ _ _
@[simp] theorem answered_cfgOld (s : State) (mb slot : Nat) (t : State) (r : Reply) :
    (answered s mb slot t r).chip.cfgOld = t.chip.cfgOld := writeResponse_cfgOld _ _ _
@[simp] theorem answered_admitGen (s : State) (mb slot : Nat) (t : State) (r : Reply) :
    (answered s mb slot t r).chip.admitGen = t.chip.admitGen := writeResponse_admitGen _ _ _
@[simp] theorem answered_oldGen (s : State) (mb slot : Nat) (t : State) (r : Reply) :
    (answered s mb slot t r).chip.oldGen = t.chip.oldGen := writeResponse_oldGen _ _ _
@[simp] theorem answered_live2 (s : State) (mb slot : Nat) (t : State) (r : Reply) :
    (answered s mb slot t r).chip.live2 = t.chip.live2 := writeResponse_live2 _ _ _
@[simp] theorem answered_tenants (s : State) (mb slot : Nat) (t : State) (r : Reply) :
    (answered s mb slot t r).chip.tenants = t.chip.tenants := writeResponse_tenants _ _ _
@[simp] theorem answered_quince (s : State) (mb slot : Nat) (t : State) (r : Reply) :
    (answered s mb slot t r).chip.quince = t.chip.quince := writeResponse_quince _ _ _
@[simp] theorem answered_rng (s : State) (mb slot : Nat) (t : State) (r : Reply) :
    (answered s mb slot t r).chip.rng = t.chip.rng := writeResponse_rng _ _ _
@[simp] theorem answered_fw (s : State) (mb slot : Nat) (t : State) (r : Reply) :
    (answered s mb slot t r).chip.fw = t.chip.fw := writeResponse_fw _ _ _
@[simp] theorem answered_flitGap (s : State) (mb slot : Nat) (t : State) (r : Reply) :
    (answered s mb slot t r).chip.flitGap = t.chip.flitGap := writeResponse_flitGap _ _ _
@[simp] theorem answered_rngStallMax (s : State) (mb slot : Nat) (t : State) (r : Reply) :
    (answered s mb slot t r).chip.rngStallMax = t.chip.rngStallMax := writeResponse_rngStallMax _ _ _
@[simp] theorem answered_authSince (s : State) (mb slot : Nat) (t : State) (r : Reply) :
    (answered s mb slot t r).chip.authSince = t.chip.authSince := writeResponse_authSince _ _ _
@[simp] theorem answered_tempWarned (s : State) (mb slot : Nat) (t : State) (r : Reply) :
    (answered s mb slot t r).chip.tempWarned = t.chip.tempWarned := writeResponse_tempWarned _ _ _
@[simp] theorem answered_trippedOnce (s : State) (mb slot : Nat) (t : State) (r : Reply) :
    (answered s mb slot t r).chip.trippedOnce = t.chip.trippedOnce := writeResponse_trippedOnce _ _ _
@[simp] theorem answered_killedAtBoot (s : State) (mb slot : Nat) (t : State) (r : Reply) :
    (answered s mb slot t r).chip.killedAtBoot = t.chip.killedAtBoot := writeResponse_killedAtBoot _ _ _
@[simp] theorem answered_admissions (s : State) (mb slot : Nat) (t : State) (r : Reply) :
    (answered s mb slot t r).chip.admissions = t.chip.admissions := writeResponse_admissions _ _ _
@[simp] theorem answered_free (s : State) (mb slot : Nat) (t : State) (r : Reply) :
    (answered s mb slot t r).chip.free = t.chip.free := writeResponse_free _ _ _
@[simp] theorem answered_faults_srcs (s : State) (mb slot : Nat) (t : State) (r : Reply) :
    (answered s mb slot t r).chip.faults.srcs = t.chip.faults.srcs := writeResponse_faults_srcs _ _ _
@[simp] theorem answered_faults_sticky (s : State) (mb slot : Nat) (t : State) (r : Reply) :
    (answered s mb slot t r).chip.faults.sticky = t.chip.faults.sticky := writeResponse_faults_sticky _ _ _
@[simp] theorem answered_faults_net (s : State) (mb slot : Nat) (t : State) (r : Reply) :
    (answered s mb slot t r).chip.faults.net = t.chip.faults.net := writeResponse_faults_net _ _ _
@[simp] theorem answered_faults_last (s : State) (mb slot : Nat) (t : State) (r : Reply) :
    (answered s mb slot t r).chip.faults.last = t.chip.faults.last := writeResponse_faults_last _ _ _
@[simp] theorem answered_faults_units (s : State) (mb slot : Nat) (t : State) (r : Reply) :
    (answered s mb slot t r).chip.faults.units = t.chip.faults.units := writeResponse_faults_units _ _ _
@[simp] theorem answered_faults_settle (s : State) (mb slot : Nat) (t : State) (r : Reply) :
    (answered s mb slot t r).chip.faults.settle = t.chip.faults.settle := writeResponse_faults_settle _ _ _
@[simp] theorem answered_faults_replaceLevel (s : State) (mb slot : Nat) (t : State) (r : Reply) :
    (answered s mb slot t r).chip.faults.replaceLevel = t.chip.faults.replaceLevel := writeResponse_faults_replaceLevel _ _ _
@[simp] theorem answered_faults_replace (s : State) (mb slot : Nat) (t : State) (r : Reply) :
    (answered s mb slot t r).chip.faults.replace = t.chip.faults.replace := writeResponse_faults_replace _ _ _
@[simp] theorem answered_faults_react (s : State) (mb slot : Nat) (t : State) (r : Reply) :
    (answered s mb slot t r).chip.faults.react = t.chip.faults.react := writeResponse_faults_react _ _ _
@[simp] theorem answered_faults_cause (s : State) (mb slot : Nat) (t : State) (r : Reply) :
    (answered s mb slot t r).chip.faults.cause = t.chip.faults.cause := writeResponse_faults_cause _ _ _
@[simp] theorem answered_faults_haltAt (s : State) (mb slot : Nat) (t : State) (r : Reply) :
    (answered s mb slot t r).chip.faults.haltAt = t.chip.faults.haltAt := writeResponse_faults_haltAt _ _ _
@[simp] theorem answered_faults_closing (s : State) (mb slot : Nat) (t : State) (r : Reply) :
    (answered s mb slot t r).chip.faults.closing = t.chip.faults.closing := writeResponse_faults_closing _ _ _
@[simp] theorem answered_faults_sweeping (s : State) (mb slot : Nat) (t : State) (r : Reply) :
    (answered s mb slot t r).chip.faults.sweeping = t.chip.faults.sweeping := writeResponse_faults_sweeping _ _ _
@[simp] theorem answered_faults_quiet (s : State) (mb slot : Nat) (t : State) (r : Reply) :
    (answered s mb slot t r).chip.faults.quiet = t.chip.faults.quiet := writeResponse_faults_quiet _ _ _
@[simp] theorem answered_faults_attEn (s : State) (mb slot : Nat) (t : State) (r : Reply) :
    (answered s mb slot t r).chip.faults.attEn = t.chip.faults.attEn := writeResponse_faults_attEn _ _ _
@[simp] theorem answered_aon_ (s : State) (mb slot : Nat) (t : State) (r : Reply) : (answered s mb slot t r).aon = t.aon := rfl
@[simp] theorem answered_otp_ (s : State) (mb slot : Nat) (t : State) (r : Reply) : (answered s mb slot t r).otp = t.otp := rfl
@[simp] theorem answered_flash0_ (s : State) (mb slot : Nat) (t : State) (r : Reply) : (answered s mb slot t r).flash0 = t.flash0 := rfl
@[simp] theorem answered_flash1_ (s : State) (mb slot : Nat) (t : State) (r : Reply) : (answered s mb slot t r).flash1 = t.flash1 := rfl
@[simp] theorem answered_kekSource_ (s : State) (mb slot : Nat) (t : State) (r : Reply) : (answered s mb slot t r).kekSource = t.kekSource := rfl
@[simp] theorem answered_pending_ (s : State) (mb slot : Nat) (t : State) (r : Reply) : (answered s mb slot t r).pending = t.pending := rfl

theorem executing_mb (s : State) (mb slot : Nat) : (executing s mb slot).mb = mb := by
  unfold executing
  dsimp only
  split <;> rfl

theorem executing_slot (s : State) (mb slot : Nat) : (executing s mb slot).slot = slot := by
  unfold executing
  dsimp only
  split <;> rfl

theorem executing_dropped (s : State) (mb slot : Nat) : (executing s mb slot).dropped = false := by
  unfold executing
  dsimp only
  split <;> rfl

/-- Bytes 0x00 to 0x2F of a response (R245). -/
theorem respAt_answered (s : State) (mb slot : Nat) (t : State) (r : Reply) (off n : Nat) (h : off + n ≤ 0x30) :
    respAt (answered s mb slot t r) mb slot off n =
      bytesAt (putAt 0 2 (cOpcode (slotOf t mb slot).cmd) ||| putAt 2 2 (cb (slotOf t mb slot).cmd 2 2) |||
        putAt 4 1 r.status ||| putAt 5 1 r.detail ||| putAt 8 4 r.job |||
        putAt 12 4 (if (officerOf mb).isSome then (executing s mb slot).ccount else 0) |||
        putAt 16 48 (if (officerOf mb).isSome then r.result % 2 ^ 256 else r.result)) off n := by
  obtain ⟨mac, hm, _⟩ := writeResponse_slot t.chip (executing s mb slot) r (executing_dropped s mb slot)
  rw [executing_mb, executing_slot] at hm
  have hs : slotOf (answered s mb slot t r) mb slot = _ := hm
  unfold respAt
  rw [hs]
  dsimp only
  rw [BitVec.toNat_or, bytesAt_or, bytesAt_ofNat _ _ _ _ (by omega), bytesAt_putAt_out _ _ _ _ _ (Or.inl (by omega)),
    Nat.or_zero]
  unfold mkResp
  rw [bytesAt_ofNat _ _ _ _ (by omega)]
  rfl

theorem slotOf_answered_cmd (s : State) (mb slot : Nat) (t : State) (r : Reply) :
    (slotOf (answered s mb slot t r) mb slot).cmd = (slotOf t mb slot).cmd := by
  obtain ⟨mac, hm, _⟩ := writeResponse_slot t.chip (executing s mb slot) r (executing_dropped s mb slot)
  rw [executing_mb, executing_slot] at hm
  have hs : slotOf (answered s mb slot t r) mb slot = _ := hm
  rw [hs]
  rfl

/-- The response carries the command's OPCODE and CTAG, with the STATUS and DETAIL of its outcome (R245). -/
theorem answered_responded (s : State) (mb slot : Nat) (t : State) (r : Reply) (hs : r.status < 256) (hd : r.detail < 256) :
    Responded (answered s mb slot t r) mb slot r.status r.detail := by
  have ho (v : Nat) (off n a b : Nat) (h : off + n ≤ a ∨ a + b ≤ off) : bytesAt (putAt a b v) off n = 0 :=
    bytesAt_putAt_out _ _ _ _ _ h
  have hcb (c : CommandWord) (a n : Nat) : cb c a n < 2 ^ (8 * n) := Nat.mod_lt _ (Nat.two_pow_pos _)
  refine ⟨?_, ?_, ?_, ?_, ?_⟩
  · obtain ⟨mac, hm, _⟩ := writeResponse_slot t.chip (executing s mb slot) r (executing_dropped s mb slot)
    rw [executing_mb, executing_slot] at hm
    have hs : slotOf (answered s mb slot t r) mb slot = _ := hm
    rw [hs]
  · rw [respAt_answered _ _ _ _ _ _ _ (by omega), slotOf_answered_cmd]
    simp only [bytesAt_or]
    rw [bytesAt_putAt_self 0 2 (cOpcode _) (hcb _ 0 2), ho _ 0 2 2 2 (by omega), ho _ 0 2 4 1 (by omega), ho _ 0 2 5 1 (by omega),
      ho _ 0 2 8 4 (by omega), ho _ 0 2 12 4 (by omega), ho _ 0 2 16 48 (by omega)]
    simp
  · rw [respAt_answered _ _ _ _ _ _ _ (by omega), slotOf_answered_cmd]
    simp only [bytesAt_or]
    rw [bytesAt_putAt_self _ _ _ (hcb _ 2 2), ho _ 2 2 0 2 (by omega), ho _ 2 2 4 1 (by omega), ho _ 2 2 5 1 (by omega),
      ho _ 2 2 8 4 (by omega), ho _ 2 2 12 4 (by omega), ho _ 2 2 16 48 (by omega)]
    simp
  · rw [respAt_answered _ _ _ _ _ _ _ (by omega)]
    simp only [bytesAt_or]
    rw [bytesAt_putAt_self 4 1 _ hs, ho _ 4 1 0 2 (by omega), ho _ 4 1 2 2 (by omega), ho _ 4 1 5 1 (by omega),
      ho _ 4 1 8 4 (by omega), ho _ 4 1 12 4 (by omega), ho _ 4 1 16 48 (by omega)]
    simp
  · rw [respAt_answered _ _ _ _ _ _ _ (by omega)]
    simp only [bytesAt_or]
    rw [bytesAt_putAt_self 5 1 _ hd, ho _ 5 1 0 2 (by omega), ho _ 5 1 2 2 (by omega), ho _ 5 1 4 1 (by omega),
      ho _ 5 1 8 4 (by omega), ho _ 5 1 12 4 (by omega), ho _ 5 1 16 48 (by omega)]
    simp

/-- Bytes 0x10 to 0x2F of a response are RESULT (R245). -/
theorem respAt_answered_result (s : State) (mb slot : Nat) (t : State) (r : Reply) (off n : Nat) (h0 : 16 ≤ off)
    (h : off + n ≤ 0x30) : respAt (answered s mb slot t r) mb slot off n = bytesAt r.result (off - 16) n := by
  have ho (v : Nat) (a b : Nat) (h : off + n ≤ a ∨ a + b ≤ off) : bytesAt (putAt a b v) off n = 0 :=
    bytesAt_putAt_out _ _ _ _ _ h
  rw [respAt_answered _ _ _ _ _ _ _ h]
  simp only [bytesAt_or]
  rw [ho _ 0 2 (by omega), ho _ 2 2 (by omega), ho _ 4 1 (by omega), ho _ 5 1 (by omega), ho _ 8 4 (by omega),
    ho _ 12 4 (by omega), bytesAt_putAt_in _ _ _ _ _ h0 (by omega)]
  simp only [Nat.zero_or]
  split
  · exact bits_mod _ _ _ _ (by omega)
  · rfl

/-- Bytes 0x08 to 0x0B of a response are JOB (R245). -/
theorem respAt_answered_job (s : State) (mb slot : Nat) (t : State) (r : Reply) (hj : r.job < 2 ^ 32) :
    respAt (answered s mb slot t r) mb slot 8 4 = r.job := by
  have ho (v : Nat) (a b : Nat) (h : 8 + 4 ≤ a ∨ a + b ≤ 8) : bytesAt (putAt a b v) 8 4 = 0 :=
    bytesAt_putAt_out _ _ _ _ _ h
  rw [respAt_answered _ _ _ _ _ _ _ (by omega)]
  simp only [bytesAt_or]
  rw [ho _ 0 2 (by omega), ho _ 2 2 (by omega), ho _ 4 1 (by omega), ho _ 5 1 (by omega), bytesAt_putAt_self 8 4 _ hj,
    ho _ 12 4 (by omega), ho _ 16 48 (by omega)]
  simp

/-! ### Starting a command -/

/-- On a page that is no officer's, a start changes the mailbox and Quince's turn only. -/
theorem started_page (s : State) (mb slot : Nat) (h : officerOf mb = none) :
    (started s mb slot).chip = turnChip s mb slot := by
  rw [started_eq, h]
  unfold startChip timesEnded
  rw [h]

/-- Posting does not look at the keys and the random unit. -/
theorem Posts.withKeys {a b : Chip} (h : Posts a b) (k : Keys) (r : Rng) :
    Posts { a with keys := k, rng := r } { b with keys := k, rng := r } :=
  ⟨by rw [h.rest], h.ctl, h.faults, fun i => h.mbs i, h.xspi0, h.xspi1⟩

/-- A start posts, beside the mailbox, Quince's turn, the keys and the random unit. -/
theorem started_posts (s : State) (mb slot : Nat) :
    Posts { s.chip with
        mbs := (setMb s.chip mb (startMb s mb slot)).mbs, quince := (started s mb slot).chip.quince
        keys := (started s mb slot).chip.keys, rng := (started s mb slot).chip.rng } (started s mb slot).chip := by
  have ht : turnChip s mb slot = { s.chip with
      mbs := (setMb s.chip mb (startMb s mb slot)).mbs, quince := (turnChip s mb slot).quince } := by
    unfold turnChip
    rw [takeTurn_eq]
    rfl
  cases hO : officerOf mb with
  | none =>
    rw [started_page s mb slot hO, ht]
    exact Posts.refl _
  | some o =>
    obtain ⟨n, hp⟩ := expireSession_posts (turnChip s mb slot)
    have hc : (started s mb slot).chip =
        { expireSession (turnChip s mb slot) with
          keys := (started s mb slot).chip.keys, rng := (started s mb slot).chip.rng } := by
      rw [started_eq, hO]
      dsimp only
      unfold startChip timesEnded
      rw [hO]
      dsimp only
      rw [setOfficer_eq, consumeChallenge_eq, lockoutOver_keys]
    have hq : (started s mb slot).chip.quince = (turnChip s mb slot).quince := by
      rw [hc]
      exact hp.quince
    have h := hp.withKeys (started s mb slot).chip.keys (started s mb slot).chip.rng
    rw [← hc] at h
    rw [ht] at h
    rw [hq]
    exact h

theorem started_state (s : State) (mb slot : Nat) : started s mb slot = { s with chip := (started s mb slot).chip } := by
  unfold started
  extract_lets m sl taken m2 ch
  split <;> rfl

@[simp] theorem started_powered (s : State) (mb slot : Nat) : (started s mb slot).chip.powered = s.chip.powered := (started_posts s mb slot).powered
@[simp] theorem started_dstate (s : State) (mb slot : Nat) : (started s mb slot).chip.dstate = s.chip.dstate := (started_posts s mb slot).dstate
@[simp] theorem started_booted (s : State) (mb slot : Nat) : (started s mb slot).chip.booted = s.chip.booted := (started_posts s mb slot).booted
@[simp] theorem started_coreMul (s : State) (mb slot : Nat) : (started s mb slot).chip.coreMul = s.chip.coreMul := (started_posts s mb slot).coreMul
@[simp] theorem started_cycle (s : State) (mb slot : Nat) : (started s mb slot).chip.cycle = s.chip.cycle := (started_posts s mb slot).cycle
@[simp] theorem started_boots (s : State) (mb slot : Nat) : (started s mb slot).chip.boots = s.chip.boots := (started_posts s mb slot).boots
@[simp] theorem started_pfail (s : State) (mb slot : Nat) : (started s mb slot).chip.pfail = s.chip.pfail := (started_posts s mb slot).pfail
@[simp] theorem started_ports (s : State) (mb slot : Nat) : (started s mb slot).chip.ports = s.chip.ports := (started_posts s mb slot).ports
@[simp] theorem started_clusters (s : State) (mb slot : Nat) : (started s mb slot).chip.clusters = s.chip.clusters := (started_posts s mb slot).clusters
@[simp] theorem started_damson (s : State) (mb slot : Nat) : (started s mb slot).chip.damson = s.chip.damson := (started_posts s mb slot).damson
@[simp] theorem started_lines (s : State) (mb slot : Nat) : (started s mb slot).chip.lines = s.chip.lines := (started_posts s mb slot).lines
@[simp] theorem started_sweeps (s : State) (mb slot : Nat) : (started s mb slot).chip.sweeps = s.chip.sweeps := (started_posts s mb slot).sweeps
@[simp] theorem started_sweepsInv (s : State) (mb slot : Nat) : (started s mb slot).chip.sweepsInv = s.chip.sweepsInv := (started_posts s mb slot).sweepsInv
@[simp] theorem started_ljobs (s : State) (mb slot : Nat) : (started s mb slot).chip.ljobs = s.chip.ljobs := (started_posts s mb slot).ljobs
@[simp] theorem started_ranges (s : State) (mb slot : Nat) : (started s mb slot).chip.ranges = s.chip.ranges := (started_posts s mb slot).ranges
@[simp] theorem started_rangeNext (s : State) (mb slot : Nat) : (started s mb slot).chip.rangeNext = s.chip.rangeNext := (started_posts s mb slot).rangeNext
@[simp] theorem started_fetchQ (s : State) (mb slot : Nat) : (started s mb slot).chip.fetchQ = s.chip.fetchQ := (started_posts s mb slot).fetchQ
@[simp] theorem started_brambleEn (s : State) (mb slot : Nat) : (started s mb slot).chip.brambleEn = s.chip.brambleEn := (started_posts s mb slot).brambleEn
@[simp] theorem started_cfg (s : State) (mb slot : Nat) : (started s mb slot).chip.cfg = s.chip.cfg := (started_posts s mb slot).cfg
@[simp] theorem started_cfgOld (s : State) (mb slot : Nat) : (started s mb slot).chip.cfgOld = s.chip.cfgOld := (started_posts s mb slot).cfgOld
@[simp] theorem started_admitGen (s : State) (mb slot : Nat) : (started s mb slot).chip.admitGen = s.chip.admitGen := (started_posts s mb slot).admitGen
@[simp] theorem started_oldGen (s : State) (mb slot : Nat) : (started s mb slot).chip.oldGen = s.chip.oldGen := (started_posts s mb slot).oldGen
@[simp] theorem started_live2 (s : State) (mb slot : Nat) : (started s mb slot).chip.live2 = s.chip.live2 := (started_posts s mb slot).live2
@[simp] theorem started_tenants (s : State) (mb slot : Nat) : (started s mb slot).chip.tenants = s.chip.tenants := (started_posts s mb slot).tenants
@[simp] theorem started_fw (s : State) (mb slot : Nat) : (started s mb slot).chip.fw = s.chip.fw := (started_posts s mb slot).fw
@[simp] theorem started_flitGap (s : State) (mb slot : Nat) : (started s mb slot).chip.flitGap = s.chip.flitGap := (started_posts s mb slot).flitGap
@[simp] theorem started_rngStallMax (s : State) (mb slot : Nat) : (started s mb slot).chip.rngStallMax = s.chip.rngStallMax := (started_posts s mb slot).rngStallMax
@[simp] theorem started_authSince (s : State) (mb slot : Nat) : (started s mb slot).chip.authSince = s.chip.authSince := (started_posts s mb slot).authSince
@[simp] theorem started_tempWarned (s : State) (mb slot : Nat) : (started s mb slot).chip.tempWarned = s.chip.tempWarned := (started_posts s mb slot).tempWarned
@[simp] theorem started_trippedOnce (s : State) (mb slot : Nat) : (started s mb slot).chip.trippedOnce = s.chip.trippedOnce := (started_posts s mb slot).trippedOnce
@[simp] theorem started_killedAtBoot (s : State) (mb slot : Nat) : (started s mb slot).chip.killedAtBoot = s.chip.killedAtBoot := (started_posts s mb slot).killedAtBoot
@[simp] theorem started_admissions (s : State) (mb slot : Nat) : (started s mb slot).chip.admissions = s.chip.admissions := (started_posts s mb slot).admissions
@[simp] theorem started_free (s : State) (mb slot : Nat) : (started s mb slot).chip.free = s.chip.free := (started_posts s mb slot).free
@[simp] theorem started_faults_srcs (s : State) (mb slot : Nat) : (started s mb slot).chip.faults.srcs = s.chip.faults.srcs := (started_posts s mb slot).faults_srcs
@[simp] theorem started_faults_sticky (s : State) (mb slot : Nat) : (started s mb slot).chip.faults.sticky = s.chip.faults.sticky := (started_posts s mb slot).faults_sticky
@[simp] theorem started_faults_net (s : State) (mb slot : Nat) : (started s mb slot).chip.faults.net = s.chip.faults.net := (started_posts s mb slot).faults_net
@[simp] theorem started_faults_last (s : State) (mb slot : Nat) : (started s mb slot).chip.faults.last = s.chip.faults.last := (started_posts s mb slot).faults_last
@[simp] theorem started_faults_units (s : State) (mb slot : Nat) : (started s mb slot).chip.faults.units = s.chip.faults.units := (started_posts s mb slot).faults_units
@[simp] theorem started_faults_settle (s : State) (mb slot : Nat) : (started s mb slot).chip.faults.settle = s.chip.faults.settle := (started_posts s mb slot).faults_settle
@[simp] theorem started_faults_replaceLevel (s : State) (mb slot : Nat) : (started s mb slot).chip.faults.replaceLevel = s.chip.faults.replaceLevel := (started_posts s mb slot).faults_replaceLevel
@[simp] theorem started_faults_replace (s : State) (mb slot : Nat) : (started s mb slot).chip.faults.replace = s.chip.faults.replace := (started_posts s mb slot).faults_replace
@[simp] theorem started_faults_react (s : State) (mb slot : Nat) : (started s mb slot).chip.faults.react = s.chip.faults.react := (started_posts s mb slot).faults_react
@[simp] theorem started_faults_cause (s : State) (mb slot : Nat) : (started s mb slot).chip.faults.cause = s.chip.faults.cause := (started_posts s mb slot).faults_cause
@[simp] theorem started_faults_haltAt (s : State) (mb slot : Nat) : (started s mb slot).chip.faults.haltAt = s.chip.faults.haltAt := (started_posts s mb slot).faults_haltAt
@[simp] theorem started_faults_closing (s : State) (mb slot : Nat) : (started s mb slot).chip.faults.closing = s.chip.faults.closing := (started_posts s mb slot).faults_closing
@[simp] theorem started_faults_sweeping (s : State) (mb slot : Nat) : (started s mb slot).chip.faults.sweeping = s.chip.faults.sweeping := (started_posts s mb slot).faults_sweeping
@[simp] theorem started_faults_quiet (s : State) (mb slot : Nat) : (started s mb slot).chip.faults.quiet = s.chip.faults.quiet := (started_posts s mb slot).faults_quiet
@[simp] theorem started_faults_attEn (s : State) (mb slot : Nat) : (started s mb slot).chip.faults.attEn = s.chip.faults.attEn := (started_posts s mb slot).faults_attEn
@[simp] theorem started_aon_ (s : State) (mb slot : Nat) : (started s mb slot).aon = s.aon := by rw [started_state]
@[simp] theorem started_otp_ (s : State) (mb slot : Nat) : (started s mb slot).otp = s.otp := by rw [started_state]
@[simp] theorem started_flash0_ (s : State) (mb slot : Nat) : (started s mb slot).flash0 = s.flash0 := by rw [started_state]
@[simp] theorem started_flash1_ (s : State) (mb slot : Nat) : (started s mb slot).flash1 = s.flash1 := by rw [started_state]
@[simp] theorem started_kekSource_ (s : State) (mb slot : Nat) : (started s mb slot).kekSource = s.kekSource := by rw [started_state]
@[simp] theorem started_pending_ (s : State) (mb slot : Nat) : (started s mb slot).pending = s.pending := by rw [started_state]

/-- The keys that a command's start leaves: all but an officer's page and a session that has run out. -/
theorem started_keys (s : State) (mb slot : Nat) :
    (started s mb slot).chip.keys = { s.chip.keys with
      offA := (started s mb slot).chip.keys.offA, offB := (started s mb slot).chip.keys.offB
      session := (started s mb slot).chip.keys.session } := by
  have hset : ∀ (ch : Chip) (o : Nat) (v : Officer), (setOfficer ch o v).keys = { ch.keys with
      offA := (setOfficer ch o v).keys.offA, offB := (setOfficer ch o v).keys.offB } := by
    intro ch o v
    unfold setOfficer
    split <;> rfl
  have hcons : ∀ (ch : Chip) (o : Nat), (consumeChallenge ch o).keys = { ch.keys with
      offA := (consumeChallenge ch o).keys.offA, offB := (consumeChallenge ch o).keys.offB } := by
    intro ch o
    unfold consumeChallenge
    extract_lets f d
    split
    · exact hset _ _ _
    · exact hset _ _ _
  have hlock : ∀ (ch : Chip) (o : Nat), (lockoutOver ch o).keys = { ch.keys with
      offA := (lockoutOver ch o).keys.offA, offB := (lockoutOver ch o).keys.offB } := by
    intro ch o
    unfold lockoutOver
    dsimp only
    split
    · split
      · exact hset _ _ _
      · rfl
    · rfl
  cases hO : officerOf mb with
  | none =>
    rw [started_page s mb slot hO, turnChip_eq]
  | some o =>
    obtain ⟨n, hp⟩ := expireSession_posts (turnChip s mb slot)
    have hk : (expireSession (turnChip s mb slot)).keys = { s.chip.keys with session := n } := by
      rw [hp.keys, turnChip_eq]
    have hs : (started s mb slot).chip = setOfficer (consumeChallenge (lockoutOver (expireSession (turnChip s mb slot)) o) o) o
        { getOfficer (consumeChallenge (lockoutOver (expireSession (turnChip s mb slot)) o) o) o with fails := 0 } := by
      rw [started_eq, hO]
      unfold startChip timesEnded
      rw [hO]
    rw [hs, hset, hcons, hlock, hk]

@[simp] theorem started_keys_vk (s : State) (mb slot : Nat) : (started s mb slot).chip.keys.vk = s.chip.keys.vk := by rw [started_keys]
@[simp] theorem started_keys_tk (s : State) (mb slot : Nat) : (started s mb slot).chip.keys.tk = s.chip.keys.tk := by rw [started_keys]
@[simp] theorem started_keys_ck (s : State) (mb slot : Nat) : (started s mb slot).chip.keys.ck = s.chip.keys.ck := by rw [started_keys]
@[simp] theorem started_keys_awaitCk (s : State) (mb slot : Nat) : (started s mb slot).chip.keys.awaitCk = s.chip.keys.awaitCk := by rw [started_keys]
@[simp] theorem started_keys_secretGen (s : State) (mb slot : Nat) : (started s mb slot).chip.keys.secretGen = s.chip.keys.secretGen := by rw [started_keys]
@[simp] theorem started_keys_desc (s : State) (mb slot : Nat) : (started s mb slot).chip.keys.desc = s.chip.keys.desc := by rw [started_keys]
@[simp] theorem started_keys_descInv (s : State) (mb slot : Nat) : (started s mb slot).chip.keys.descInv = s.chip.keys.descInv := by rw [started_keys]
@[simp] theorem started_keys_cache (s : State) (mb slot : Nat) : (started s mb slot).chip.keys.cache = s.chip.keys.cache := by rw [started_keys]
@[simp] theorem started_keys_codes (s : State) (mb slot : Nat) : (started s mb slot).chip.keys.codes = s.chip.keys.codes := by rw [started_keys]
@[simp] theorem started_keys_inflight (s : State) (mb slot : Nat) : (started s mb slot).chip.keys.inflight = s.chip.keys.inflight := by rw [started_keys]
@[simp] theorem started_keys_silent (s : State) (mb slot : Nat) : (started s mb slot).chip.keys.silent = s.chip.keys.silent := by rw [started_keys]
@[simp] theorem started_keys_pins (s : State) (mb slot : Nat) : (started s mb slot).chip.keys.pins = s.chip.keys.pins := by rw [started_keys]
@[simp] theorem started_keys_keks (s : State) (mb slot : Nat) : (started s mb slot).chip.keys.keks = s.chip.keys.keks := by rw [started_keys]
@[simp] theorem started_keys_gtkCur (s : State) (mb slot : Nat) : (started s mb slot).chip.keys.gtkCur = s.chip.keys.gtkCur := by rw [started_keys]
@[simp] theorem started_keys_gtkPrev (s : State) (mb slot : Nat) : (started s mb slot).chip.keys.gtkPrev = s.chip.keys.gtkPrev := by rw [started_keys]
@[simp] theorem started_keys_ldesc (s : State) (mb slot : Nat) : (started s mb slot).chip.keys.ldesc = s.chip.keys.ldesc := by rw [started_keys]
@[simp] theorem started_keys_ldescInv (s : State) (mb slot : Nat) : (started s mb slot).chip.keys.ldescInv = s.chip.keys.ldescInv := by rw [started_keys]
@[simp] theorem started_keys_lstore (s : State) (mb slot : Nat) : (started s mb slot).chip.keys.lstore = s.chip.keys.lstore := by rw [started_keys]
@[simp] theorem started_keys_lcodes (s : State) (mb slot : Nat) : (started s mb slot).chip.keys.lcodes = s.chip.keys.lcodes := by rw [started_keys]
@[simp] theorem started_keys_linflight (s : State) (mb slot : Nat) : (started s mb slot).chip.keys.linflight = s.chip.keys.linflight := by rw [started_keys]
@[simp] theorem started_keys_lsilent (s : State) (mb slot : Nat) : (started s mb slot).chip.keys.lsilent = s.chip.keys.lsilent := by rw [started_keys]
@[simp] theorem started_keys_lregs (s : State) (mb slot : Nat) : (started s mb slot).chip.keys.lregs = s.chip.keys.lregs := by rw [started_keys]

theorem started_getMb (s : State) (mb slot i : Nat) :
    getMb (started s mb slot).chip i = { (if i = mb then startMb s mb slot else getMb s.chip i) with
      attPend := (getMb (started s mb slot).chip i).attPend } := by
  have h := (started_posts s mb slot).mbs i
  have e : ∀ c : Chip, getMb { s.chip with
      mbs := (setMb s.chip mb (startMb s mb slot)).mbs, quince := c.quince, keys := c.keys, rng := c.rng } i =
      if i = mb then startMb s mb slot else getMb s.chip i := fun c => getMb_setMb s.chip mb i _
  rw [e] at h
  exact h

theorem started_slot (s : State) (mb slot : Nat) :
    slotOf (started s mb slot) mb slot = { slotOf s mb slot with st := .executing } := by
  unfold slotOf
  rw [started_getMb, if_pos rfl]
  simp only [startMb, Tbl.get_set_self]

end Sys2Proof.Machine
end

