-- ==== Sys2Proof/Tests/Slice0.lean ====
section
/-! SUPPORT. The model's own tests: commands that the well-formedness checks refuse; the spec's worked examples, each with its
expected result from the spec's text; and, for the statements of Certificates/Slice0, small states that meet their hypotheses. -/

namespace Sys2Proof.Tests

open Sys2Proof Sys2Proof.Machine

set_option maxRecDepth 4000
set_option Elab.async false

/-! ### Helpers -/

/-- A state with this chip and nothing else set. -/
def on (c : Chip) : State := { chip := c }

/-- A chip that serves commands: READY. -/
def ready : Chip := { dstate := 1, booted := true }

/-- A chip in HALT. -/
def inHalt : Chip := { dstate := 2, booted := true, faults := { react := 1 } }

/-- A command word: opcode, CTAG 9, and parameters as (byte offset, bytes, value). -/
def word (op : Nat) (ps : List (Nat × Nat × Nat)) : CommandWord :=
  BitVec.ofNat 1024 (ps.foldl (fun a p => a ||| putAt p.1 p.2.1 p.2.2) (putAt 0 2 op ||| putAt 2 2 9))

/-- The chip with one command submitted in slot 3 of a mailbox. -/
def send (ch : Chip) (mb : Nat) (c : CommandWord) : State :=
  on (setMb ch mb { getMb ch mb with slots := [(3, { st := .submitted, cmd := c })], order := [3] })

/-- The outcome is a next state, and it passes the check. -/
def nextIs (o : Host.Outcome State Fault Refusal) (f : State → Bool) : Bool :=
  match o with
  | .next t => f t
  | .fault _ => false
  | .refused _ => false

/-- The numbers a, a + 1, … as `n` bytes. -/
def run (a n : Nat) : List Byte := (List.range n).map fun i => BitVec.ofNat 8 (a + i)

/-- `Served`, as a check. -/
def served (s : State) (mb slot op : Nat) (cmd : CommandWord) : Bool :=
  s.chip.powered && serving s.chip && decide (nextMailbox s.chip = some mb) &&
    decide ((getMb s.chip mb).order.head? = some slot) && decide ((Tbl.get {} (getMb s.chip mb).slots slot).cmd = cmd) &&
    decide (cOpcode cmd = op) && !s.chip.fw.rom && !s.chip.fw.handover &&
    (match opInfo op with | some i => mayIssue i mb && (!halted s.chip || i.served) | none => false) &&
    (decide (mb ≠ 1027) || !s.otp.locked) && decide (cb cmd 4 12 = 0) &&
    (decide (1024 ≤ mb) || decide (tenantRefusal s.chip mb op = none)) &&
    (match officerOf mb with
     | none => decide (cb cmd 0x70 16 = 0)
     | some o => s.chip.rng.seeded && decide ((getOfficer s.chip o).lockUntil = none) &&
       (match authKey s.chip o (cOpcode cmd) with
        | some k => decide (cb cmd 0x70 16 = ofLE (cmac k ((bvBytes 128 cmd).take 112 ++ challengeOf (getOfficer s.chip o))))
        | none => false))

theorem served_holds {s : State} {mb slot op : Nat} {cmd : CommandWord} (h : served s mb slot op cmd = true) :
    Served s mb slot op cmd := by
  simp only [served, Bool.and_eq_true, Bool.or_eq_true, decide_eq_true_eq, Bool.not_eq_true'] at h
  obtain ⟨⟨⟨⟨⟨⟨⟨⟨⟨⟨⟨⟨h1, h2⟩, h3⟩, h4⟩, h5⟩, h6⟩, h7⟩, h8⟩, h9⟩, h10⟩, h11⟩, h12⟩, h13⟩ := h
  refine ⟨h1, h2, h3, h4, h5, h6, h7, h8, ?_, ?_, ⟨h11, ?_⟩, ?_, ?_⟩
  · split at h9
    · rename_i i hi
      simp only [Bool.and_eq_true, Bool.or_eq_true, Bool.not_eq_true'] at h9
      exact ⟨i, hi, h9.1, fun hh => h9.2.resolve_left (by simp [hh])⟩
    · simp at h9
  · intro hm; exact h10.resolve_left (by simp [hm])
  · intro ho; rw [ho] at h13; simpa using h13
  · intro hm; exact h12.resolve_left (by omega)
  · intro o ho
    rw [ho] at h13
    simp only [Bool.and_eq_true, decide_eq_true_eq] at h13
    obtain ⟨⟨a, b⟩, c⟩ := h13
    split at c
    · rename_i k hk
      exact ⟨a, by simp [b], by simp [hk], fun k' hk' => by rw [hk] at hk'; cases hk'; simpa using c⟩
    · simp at c

/-- The command `op ps` of mailbox `mb`, submitted on `ch`, is served with well-formed parameters, and the state in which its
own part runs passes `more`: what the statements about it assume. -/
def Meets (ch : Chip) (mb op : Nat) (ps : List (Nat × Nat × Nat)) (fields : List (Nat × Nat))
    (more : State → Chip → CommandWord → Bool) : Prop :=
  let cmd := word op ps
  let s := send ch mb cmd
  Served s mb 3 op cmd ∧ paramsOk cmd fields = true ∧ more s (started s mb 3).chip cmd = true

/-- The same as one check. -/
def meets (ch : Chip) (mb op : Nat) (ps : List (Nat × Nat × Nat)) (fields : List (Nat × Nat))
    (more : State → Chip → CommandWord → Bool) : Bool :=
  let cmd := word op ps
  let s := send ch mb cmd
  served s mb 3 op cmd && paramsOk cmd fields && more s (started s mb 3).chip cmd

theorem meets_holds {ch : Chip} {mb op : Nat} {ps : List (Nat × Nat × Nat)} {fields : List (Nat × Nat)}
    {more : State → Chip → CommandWord → Bool} (h : meets ch mb op ps fields more = true) : Meets ch mb op ps fields more := by
  simp only [meets, Bool.and_eq_true] at h
  exact ⟨served_holds h.1.1, h.1.2, h.2⟩

/-! ### Operands that are not well formed are refused -/

theorem test_wf_bad_bytes : Instr.wf (.admission 0 1 [(3, 1), (3, 1)]) = false ∧ Instr.wf (.keyScrub (.slot 0) [7, 7]) = false ∧
    Instr.wf (.xnKeyPin 5 [0, 79, 0]) = false ∧ Instr.wf (.admission 0 1 [(3, 1), (4, 1)]) = true ∧
    Instr.wf (.keyScrub (.entry 0) [7, 8]) = true ∧ Instr.wf (.xnKeyPin 5 []) = true := by decide

theorem test_wf_access_width : Instr.wf (.registerWrite 0 { off := 0, size := 3, write := false, data := 0 }) = false ∧
    Instr.wf (.mbCommandWrite 5 { off := 0, size := 16, write := true, data := 0 }) = false ∧
    Instr.wf (.registerWrite 0 { off := 0, size := 8, write := false, data := 0 }) = true := by decide

theorem test_wf_fault_source : Instr.wf (.faultMessage (.formed 0x0001 1 0 [])) = false ∧
    Instr.wf (.faultMessage (.formed 0x8303 0xFE 0 [])) = false ∧
    Instr.wf (.faultMessage (.formed 0x8303 0x02 0 [.mirror, .mirror])) = false ∧
    Instr.wf (.faultMessage (.formed 0x8303 0x02 0 [.mirror])) = true := by decide

theorem test_wf_unit : Instr.wf (.unitResetDone 0x2000) = false ∧ Instr.wf (.settleWindowClose 0xD000) = false ∧
    Instr.wf (.katRun 0x0000 true) = false ∧ Instr.wf (.katForce 0x0000 true) = false ∧
    Instr.wf (.unitResetDone 0xA00C) = true ∧ Instr.wf (.katRun 0xC006 true) = true := by decide

theorem test_wf_lanes : Instr.wf (.flitIssue 0 [⟨3, .fold⟩, ⟨3, .multiply⟩]) = false ∧
    Instr.wf (.blockRetry 0 [⟨0, .fold⟩, ⟨15, .fold⟩, ⟨0, .stage 2⟩]) = false ∧
    Instr.wf (.flitIssue 0 [⟨3, .fold⟩, ⟨15, .fold⟩]) = true := by decide

theorem test_wf_line_meets :
    let f (slice : Fin 9) : LineFail := { addr := 64, block := 1, slice := slice, site := .multiply }
    let twice : LineMeets := { fails := [f 2, f 2] }
    let q : LineRequest := { write := false, addr := 64, kidx := 0, tag := 0, data := 0 }
    let d : LineReturn := { tag := 0, data := 0, metadata := 0, ecc := 0 }
    Instr.wf (.lineRequest 0 0 q twice) = false ∧ Instr.wf (.lineReadData 0 0 d twice) = false ∧
      Instr.wf (.lineWriteTaken 0 0 twice) = false ∧ Instr.wf (.lineReadRequestTaken 0 0 twice) = false ∧
      Instr.wf (.sweepWrite 7 twice) = false ∧ Instr.wf (.sweepWrite 7 { fails := [f 2, f 3] }) = true ∧
      Instr.wf (.lineRequest 0 0 q { bad := [(4, 1), (4, 1)] }) = false ∧
      Instr.wf (.lineRequest 0 0 q { bad := [(4, 1), (5, 1)] }) = true := by decide

theorem test_wf_upsets : Instr.wf (.currantFlit 0 [⟨4, 1⟩, ⟨4, 2⟩]) = false ∧ Instr.wf (.checkColumnRepass 0 [⟨4, 0⟩]) = false ∧
    Instr.wf (.currantFlit 0 [⟨4, 1⟩, ⟨5, 1⟩]) = true := by decide

theorem test_wf_sample : Instr.wf (.monitorTrip 8 (.mesh 0)) = false ∧ Instr.wf (.monitorTrip 11 (.volt true 200 9)) = false ∧
    Instr.wf (.monitorTrip 8 (.volt true 200 9)) = true := by decide

/-! ### The spec's worked examples -/

/-- 02_stream_ports.md, flit counts: a GCM DECRYPT of AADLEN 40 and LEN 1,000 is 5 flits; a tagged-XTS ENCRYPT of LEN 10,000
under U = 4,096 has 3 units and 40 flits. -/
theorem test_flit_counts : payloadLen 2 6 1000 40 0 = 1072 ∧ flitCount 1072 = 5 ∧ unitCount 10000 4096 = 3 ∧
    payloadLen 1 4 10000 0 4096 = 10000 ∧ flitCount 10000 = 40 := by decide

/-- 03_transforms.md, tweaks: DU(0x1234), and the two doublings. -/
theorem test_tweaks : duBytes 0x1234 = [0x34, 0x12] ++ zeros 14 ∧ xtsAlpha (zeros 15 ++ [0x80]) = [0x87] ++ zeros 15 ∧
    xtsAlpha (1 :: zeros 15) = 2 :: zeros 15 := by decide +kernel

/-- 03_transforms.md, derivation input: output 2 of a slot with FAMILY 00 11 … FF. -/
theorem test_kdf_input : kdfInput 2 labelTag (toBE 16 0x00112233445566778899AABBCCDDEEFF) 384 =
    [0, 0, 0, 2, 0x44, 0x4F, 0x4C, 0x48, 0x41, 0x2D, 0x54, 0x41, 0x47, 0, 0x00, 0x11, 0x22, 0x33, 0x44, 0x55, 0x66, 0x77,
      0x88, 0x99, 0xAA, 0xBB, 0xCC, 0xDD, 0xEE, 0xFF, 0, 0, 1, 0x80] := by decide +kernel

/-- 03_transforms.md, IV bytes, and 06_counters.md: slot 0x02A and lease 0x1A31 give the IV 0x02A0_0000_001A_3100_0000_0000
first, and J0 of an IV is followed by the counter block that ends in 2. -/
theorem test_iv : (drawIv { cur := some { lease := 0x1A31, sub := 0, slot := 0x02A, off := 0 } }).1 =
      0x02A00000001A310000000000#96 ∧
    gcmCounter [0x02, 0xA0, 0, 0, 0, 0, 0, 4, 0, 0, 0, 7] 0 = [0x02, 0xA0, 0, 0, 0, 0, 0, 4, 0, 0, 0, 7, 0, 0, 0, 2] := by
  decide +kernel

/-- The register that gives its last value hands over to the next one (R141). -/
theorem test_iv_end : (drawIv { cur := some { lease := 1, sub := 2, slot := 0, off := 2 ^ 24 - 1 }
                                nxt := some { lease := 1, sub := 3, slot := 0, off := 0 } }).2.cur =
    some { lease := 1, sub := 3, slot := 0, off := 0 } := by decide +kernel

/-- 03_transforms.md, GHASH rows: AADLEN 40 and LEN 250 make 20 blocks. -/
theorem test_ghash_blocks : (ghashInput (zeros 40) (zeros 250)).length = 20 * 16 := by decide +kernel

/-- 05_keys.md, a GCM data key blob: what its attribute block says. -/
theorem test_attribute_block :
    let a := blobAttr ([0x06, 0, 0x19, 0, 0x25, 0, 2, 0, 0, 0, 0, 0, 0x44, 0x4B, 0x42, 0x31] ++ zeros 48) 37 2
    a.mode = 6 ∧ a.usize = 0 ∧ a.ops = 0x19 ∧ a.budget = 0 ∧ a.framed = true := by decide +kernel

/-- The same block does not serve KEK slot 1 (12_commands_keys.md: check 7 fails). -/
theorem test_attribute_block_kek :
    (blobAttr ([0x06, 0, 0x19, 0, 0x25, 0, 2, 0, 0, 0, 0, 0, 0x44, 0x4B, 0x42, 0x31] ++ zeros 48) 37 1).framed = false := by
  decide +kernel

/-- Table 7.6: the coding matrix of K = 4, M = 2. -/
theorem test_coding_matrix : (List.range 4).map (cauchy 4 0) = [0x47, 0xA7, 0x7A, 0xBA] ∧
    (List.range 4).map (cauchy 4 1) = [0xA7, 0x47, 0xBA, 0x7A] := by decide +kernel

/-- Table 7.7: the read set and the coefficients of E = {1, 2}. -/
theorem test_pattern : positionsMask (readSet 4 2 6) = 0x39 ∧
    patternCoefs 4 2 6 = [[0xF5, 0x69, 0x28, 0x24], [0x29, 0xF5, 0x36, 0x38]] := by decide +kernel

/-- 07_shards.md: byte 0 of a parity unit, as the accumulator adds the four products. -/
theorem test_parity_byte : [(0x47, 1), (0xA7, 2), (0x7A, 3), (0xBA, 4)].foldl
    (fun acc (x : Byte × Byte) => accAdd x.1 0 [x.2] acc) [0] = [0x48] := by decide +kernel

/-- 08_lines.md: the tweak block, and the MAC of a ciphertext of zeros but for byte 60. -/
theorem test_line_mac : lineBlock 0x100000049 7 0 = [0x49, 0, 0, 0, 1, 0, 0, 0, 7, 0, 0, 0, 0, 0, 0, 0] ∧
    lineMac 0x80000001 0x12345678 (zeros 60 ++ [3, 0, 0, 0]) = 0x923456F6#32 := by decide +kernel

/-- 14_registers.md, a 4 KiB interleave: LINE_MAP0 0x2006 sends line 0x1_0000_0049 to L1. -/
theorem test_interleave : linePortOf { regs := [(0x0C0, 0x2006)] } 0x100000049 = 1 := by decide +kernel

/-- 15_faults.md: the source IDs of C12.S3 and of C12, and their sticky indices. -/
theorem test_sources : srcSlice 12 3 = 0x8303 ∧ srcCluster 12 = 0xA00C ∧ srcSticky 0x8303 = some 0x0CF ∧
    srcSticky 0xA00C = some 0x56C := by decide

/-- 15_faults.md: the first FK_ROUND_CHECK within a second is a NOTE; the second takes the source's severity. -/
theorem test_counted_kind : firstCounted ready {} 0x03 = true ∧
    firstCounted { ready with cycle := 400000 * 2000 } { counted := [(0x03, 0)] } 0x03 = false ∧
    firstCounted { ready with cycle := 1000000 * 2000 } { counted := [(0x03, 0)] } 0x03 = true := by decide +kernel

/-- 13_commands_data.md, creating a region: the command's bytes, with CTAG 7. -/
def regionCommand : CommandWord := BitVec.ofNat 1024 (ofLE ([1, 5, 7, 0] ++ zeros 12 ++ [7, 0, 1, 1, 0x25, 0, 0x20, 1, 0, 0, 0, 4,
  0, 0, 0, 0, 0xFF, 0xFF, 0xFF, 4, 0, 0, 0, 0, 0x20, 1, 0xF0, 0x0F] ++ zeros 84))

/-- Its entry: BASE, LIMIT, tenant, key, KEEP; the response shows SSTATE 1, and SWEEP is the region's first line. -/
theorem test_region_example :
    let key := mkLineDesc 2 37 0 1 false false 0
    let ch : Chip := { ready with
      cfg := { tenants := [(37, { lkeyBase := 0x100, lkeySize := 64 })] }, keys := { ldesc := [(0x120, key)] } }
    let e := mkRegion regionCommand
    regionFieldsOk regionCommand = true ∧ rgBase e = 0x4000000 ∧ rgLimit e = 0x4FFFFFF ∧ rgTenant e = 37 ∧
      rgCkey e = 0x120 ∧ rgAval e = 0x120 ∧ rgAmask e = 0xFF0 ∧ rgKeep e = true ∧
      nextIs (exec (.xnRegionSet 1024) (send ch 1024 regionCommand)) (fun t =>
        respAt t 1024 3 4 1 = 0 && respAt t 1024 3 0x12 1 = 1 && (getSweep t.chip 7).bound = 0x100000000) = true := by
  decide +kernel

/-! ### Hypotheses of the statements, met: the stream plane -/

/-- A chip with port 0 in this state. -/
def port0 (pt : Port) : Chip := setPort ready 0 pt

/-- An enabled port whose class 1 is in this state. -/
def class1 (ic : IngClass) : Port := { st := .enabled, ing := ⟨{}, ic, {}, {}⟩ }

/-- A sideband from the fields that the tests use, with its HCHK: tenant 5. -/
def header (op mode cls key len : Nat) : Sideband :=
  let n := field 0 4 op ||| field 4 4 mode ||| field 8 2 cls ||| field 10 10 5 ||| field 24 20 key ||| field 52 24 len
  BitVec.ofNat 256 (n ||| field 240 16 (hchk n))

/-- A one-flit class-1 ENCRYPT request under key 1. -/
def oneFlit : Req := { rid := 7, sb := header 1 1 1 1 256, cls := 1, flits := 1, payload := 256 }

theorem witness_StepRunsFront : (State.pending { chip := ready, pending := [.drbgReseed, .powerLoss] }) =
    .drbgReseed :: [.powerLoss] := rfl

theorem witness_EmptyQueueTicks :
    let m : EMsg := { kind := 2, tail := some (0, 0), cls := 1 }
    let a := port0 { st := .enabled, msgs := [m] }
    let b := port0 { st := .enabled, msgs := [m], credit := ⟨0, 1, 0, 0⟩ }
    (on a).pending = [] ∧ halted a = false ∧ classReady (getPort a 0) 1 = true ∧ Quad.get (getPort a 0).credit 1 = 0 ∧
      classReady (getPort b 0) 1 = true ∧ Quad.get (getPort b 0).credit 1 = 1 ∧
      (on { powered := false }).chip.powered = false := by decide +kernel

/-- By the state of the port and its class, with the credit at 0 and at 1; a message rejected, and one ended. -/
theorem witness_IngressFlitOnPort :
    let open_ := class1 { unspent := 1, run := .waiting, waiting := [{ sb := 0, data := [0] }] }
    halted inHalt = true ∧ (getPort (port0 { st := .fenced }) 0).st = .fenced ∧ (getPort ready 0).st = .disabled ∧
      (Quad.get (getPort (port0 (class1 {})) 0).ing 1).unspent = 0 ∧ halted (port0 open_) = false ∧
      (Quad.get (getPort (port0 open_) 0).ing 1).unspent = 1 ∧
      (Quad.get (getPort (port0 open_) 0).ing 1).waiting = [] ++ [{ sb := 0, data := [0] }] ∧
      (Quad.get (class1 { unspent := 1 }).ing 1).run = .idle ∧
      (Quad.get (class1 { unspent := 1, run := .discard }).ing 1).run = .discard ∧
      (Quad.get (class1 { unspent := 1, run := .rejected 0 0x21 1 0 0 }).ing 1).run = .rejected 0 0x21 1 0 0 ∧
      (Quad.get (class1 { unspent := 1, run := .ended 7 }).ing 1).run = .ended 7 := by
  decide +kernel

/-- The last flit of an ENCRYPT and of a REBUILD, a GCM DECRYPT whose prefix has a byte 12 that is not zero, and a tail
that comes one flit early. -/
theorem witness_IngressFlitAdmitted :
    let pt (q : Req) : Port := { class1 { unspent := 1, run := .admitted 7 } with reqs := [q] }
    let two := { oneFlit with flits := 2, payload := 512 }
    let rebuild := { oneFlit with sb := header 6 0 1 0 4112 }
    let gcm := { oneFlit with sb := header 2 5 1 1 272 }
    (pt oneFlit).st = .enabled ∧ (Quad.get (getPort (port0 (pt oneFlit)) 0).ing 1).run = .admitted 7 ∧
      findReq (getPort (port0 (pt oneFlit)) 0) 7 = some oneFlit ∧ oneFlit.arrived + 1 = oneFlit.flits ∧
      badPrefix oneFlit (bvBytes 256 (0 : FlitData)) = false ∧ sbOp oneFlit.sb = 1 ∧ sbOp rebuild.sb = 6 ∧
      gcm.arrived = 0 ∧ badPrefix gcm (bvBytes 256 (0 : FlitData)) = false ∧
      badPrefix gcm (bvBytes 256 (BitVec.ofNat 2048 (2 ^ 96))) = true ∧
      two.arrived + 1 ≠ two.flits ∧ two.dead = false ∧ two.holdSent = 0 ∧ (pt two).msgs = [] := by decide +kernel

/-- The effect on a one-flit ENCRYPT: its 256 bytes wait at its cluster's input of the forward half, its credit is not back
yet, and the class is idle. -/
theorem test_ingress_flit_delivered :
    let s := on (port0 { class1 { unspent := 1, run := .admitted 7 } with reqs := [oneFlit] })
    nextIs (exec (.ingressFlit 0 { cls := 1, head := false, tail := true, abort := false, sb := 0, data := 0xAB, consec := false }) s)
      (fun t => decide ((getCluster t.chip 0).fwdIn.map (fun f => (f.port, f.rid, f.bytes.length, f.bytes.head?)) =
        [(0, 7, 256, some 0xAB)]) && decide ((Quad.get (getPort t.chip 0).ing 1).run = .idle) &&
        decide ((Quad.get (getPort t.chip 0).ing 1).pulses = 0)) = true := by decide +kernel

/-- Credit at 4,094 and at its end 4,095; stall timers one cycle below 20 and 200 µs and at them. -/
theorem witness_EgressCreditAndStall :
    let at_ (n : Nat) : Chip := port0 { st := .enabled, stall := ⟨0, n, 0, 0⟩, credit := ⟨0, 4095, 4094, 0⟩ }
    Quad.get (getPort (at_ 0) 0).credit 2 < 4095 ∧ 4095 ≤ Quad.get (getPort (at_ 0) 0).credit 1 ∧
      (getPort ready 0).st = .disabled ∧ 20 * usCycles ready = 40000 ∧
      20 * usCycles (at_ 40000) ≤ Quad.get (getPort (at_ 40000) 0).stall 1 ∧
      Quad.get (getPort (at_ 40000) 0).stalled 1 = false ∧ Quad.get (getPort (at_ 39999) 0).stall 1 < 20 * usCycles (at_ 39999) ∧
      200 * usCycles (at_ 400000) ≤ Quad.get (getPort (at_ 400000) 0).stall 1 := by decide +kernel

/-- A stall of 200 µs fences the port with cause 2; one cycle less does not. -/
theorem test_stall_fence :
    let at_ (n : Nat) : State := on (port0 { st := .enabled, stall := ⟨0, n, 0, 0⟩ })
    nextIs (exec (.portStallFence 0 1) (at_ 400000)) (fun t =>
        decide ((getPort t.chip 0).st = .fenced) && decide ((getPort t.chip 0).cause = 2)) = true ∧
      nextIs (exec (.portStallFence 0 1) (at_ 399999)) (fun t => decide ((getPort t.chip 0).st = .enabled)) = true := by
  decide +kernel

/-- FLIT_GAP 8 is 2 µs: 4,000 cycles; each state of the class. -/
theorem witness_PortEvents :
    let w : IMsg := { sb := header 1 1 1 1 256, data := [0] }
    let at_ (gap : Nat) (r : IngRun) (ws : List IMsg) : Port := class1 { run := r, gap := gap, waiting := ws }
    let adm := { at_ 4000 (.admitted 7) [] with reqs := [oneFlit] }
    (getPort ready 3).piClk = true ∧ (getPort ready 3).peClk = true ∧ (getLine ready 31).clk = true ∧
      ready.flitGap * usCycles ready ≤ 4 * 4000 ∧ ¬ (ready.flitGap * usCycles ready ≤ 4 * 3999) ∧
      (Quad.get (at_ 4000 .waiting [w]).ing 1).waiting = [] ++ [w] ∧
      (Quad.get (at_ 4000 (.rejected w.sb 3 5 0 0) []).ing 1).run = .rejected w.sb 3 5 0 0 ∧
      findReq adm 7 = some oneFlit ∧ oneFlit.dead = false ∧ oneFlit.holdSent = 0 ∧ adm.msgs = [] ∧
      (Quad.get (at_ 4000 (.ended 7) []).ing 1).run = .ended 7 ∧
      (Quad.get (at_ 4000 .idle []).ing 1).run = .idle ∧ (Quad.get (at_ 4000 .discard []).ing 1).run = .discard := by
  decide +kernel

/-- A chip on which tenant 5 may send class 0 to 3 through queue 0 of port 0, with an XTS key in slot 1 and one of budget 0 in
slot 2 that is retiring. -/
def sending (pt : Port) : Chip :=
  setDesc (setDesc { port0 pt with
    tenants := [(5, { st := .enabled })]
    cfg := { tenants := [(5, { queues := 0x80CF, slotSize := 4 })] } } 1 (mkDesc 2 5 0 1 0 31 0 0 0 0 0))
    2 (mkDesc 3 5 0 1 0 31 0 0 0 0 0)

/-- A head that passes; heads refused at checks 1 and 22; class 0 with 255 and 256 tokens of credit; a record that is free
and a queue that does not wait; 8 and 9 bad bytes of the slot; a descriptor that disagrees with its inverted copy. -/
theorem witness_AdmissionJudges :
    let w (sb : Sideband) : IMsg := { sb := sb, data := [0] }
    let pt (sb : Sideband) (r : IngRun) : Port := class1 { run := r, waiting := [w sb], unspent := 0 }
    let ok := header 1 1 1 1 256
    let lost (n : Nat) : List (Fin 1048576 × Fin 80) := (List.range n).map fun i => (1, Fin.ofNat 80 i)
    let counted (n : Nat) : Nat := (((lost n).filter fun x => x.1.val = 1).map (·.2)).eraseDups.length
    halted (sending (pt ok .waiting)) = false ∧ (pt ok .waiting).st = .enabled ∧
      (Quad.get (getPort (sending (pt ok .waiting)) 0).ing 1).waiting = [w ok] ∧
      headClash (sending (pt ok .waiting)) 0 1 (w ok) = none ∧
      headClash { sending (pt ok .waiting) with keys := { (sending {}).keys with descInv := [] } } 0 1 (w ok) = some (0x10, 1) ∧
      queueWaits (sending (pt ok .waiting)) 0 (w ok) = false ∧ recordFree (pt ok .waiting) 1 = true ∧
      judgeHead (sending (pt ok .idle)) 0 1 (w ok) =
        .enter [(1, keyUse (sending (pt ok .idle)) 1)] none none 0 ∧
      enterSlots [(1, keyUse (sending (pt ok .idle)) 1)] none = [1] ∧ counted 8 = 8 ∧ counted 9 = 9 ∧
      headChecks (sending (pt (ok + 1) .waiting)) 0 1 (w (ok + 1)) = some (0x21, 0x01) ∧
      judgeHead (sending (pt (header 1 1 1 2 256) .waiting)) 0 1 (w (header 1 1 1 2 256)) = .reject stKeyRetiring 0x33 true ∧
      judgeHead (sending { st := .enabled, tokens := 255 }) 0 0 (w (header 1 1 0 1 256)) = .wait ∧
      judgeHead (sending { st := .enabled, tokens := 256 }) 0 0 (w (header 1 1 0 1 256)) =
        .enter [(1, keyUse (sending {}) 1)] none none 0 := by decide +kernel

/-- A port that cannot drive, one with nothing to drive, a STATUS report of a fence without and with credit and behind a
head, a ZERO_FILL at its first byte and under way, a message that may leave, one behind a head, and one held back for a
class-0 head that comes. -/
theorem witness_EgressDrives :
    let m : EMsg := { rid := 7, sb := oneFlit.sb, cls := 1, outlen := 256, data := zeros 256, tail := some (0, 0) }
    let r : FenceRec := { sb := oneFlit.sb, cls := 1, status := 0x24, detail := 0x61 }
    let pt : Port := { st := .enabled, credit := ⟨0, 1, 0, 0⟩, msgs := [m] }
    let zf : FenceRec := { r with zf := 300 }
    egressOn ready { pt with peClk := false } = false ∧ egressOn ready pt = true ∧ egressPick pt false = some m ∧
      egressPick { pt with credit := ⟨0, 0, 0, 0⟩ } false = none ∧ egressPick { pt with lastHead := true } false = none ∧
      egressPick pt true = none ∧ headBlocked pt true m = true ∧ headComing (port0 pt) 0 = false ∧
      egressPick { pt with lastHead := true, msgs := [{ m with headDriven := true }] } true =
        some { m with headDriven := true } ∧
      ({ pt with recs := [r] } : Port).recs = r :: [] ∧ r.zf ≤ r.zsent ∧ pt.lastHead = false ∧
      zf.zsent < zf.zf ∧ ({ zf with zsent := 256 }).zsent ≠ 0 ∧ ({ zf with zsent := 256 }).zsent < zf.zf ∧
      Quad.get pt.credit r.cls = 1 ∧ Quad.get ({ pt with credit := ⟨0, 0, 0, 0⟩ } : Port).credit r.cls = 0 := by
  decide +kernel

/-! ### Coding, counters, flash, records, keys -/

/-- Cluster 0 with this staging and these retries; port 0 holds the request of `oneFlit`. -/
def cluster0 (x : Cluster) : Chip := setCluster (port0 { st := .enabled, reqs := [oneFlit] }) 0 x

/-- A class-0 flit that the forward half grants while a class-0 slot is free, and does not while none is; nothing to
issue; class 0 before class 1; a flit in two issues (8 of 16 slices stand fenced); a failed block; a retry that clears,
one that fails again, and one that fails on the third slice. -/
theorem witness_ClusterIssues :
    let f : StagedFlit := { port := 0, rid := 7, cls := 1, order := 0, bytes := zeros 256 }
    let z : StagedFlit := { f with cls := 0 }
    let half : Chip := (List.range 8).foldl (fun ch i => setUnit ch (srcSlice 0 i) { live := .down, mirror := .down })
      (cluster0 { staging := [f] })
    let rt (done : Nat) (on : List Nat) : Retry := { flit := { f with done := done }, blocks := [(3, on)], turns := 0 }
    let ran (r : Retry) := retrySlices (cluster0 { retry := [r] }) 0 r
    let two := cluster0 { retry := [{ rt 16 [0] with blocks := [(3, [0]), (4, [1])] }] }
    let got (x : Cluster) := grantIdx x.fwdLast (x.fwdIn.map fun f => (f.port, f.cls, mayEnter (cluster0 x) 0 f))
    got {} = none ∧ got { fwdIn := [f, z], staging := [z] } = some 1 ∧
      got { fwdIn := [f, z], staging := [z, z] } = some 0 ∧ cl0Slots ready.cfg 0 = 2 ∧
      mayEnter (cluster0 { staging := [z] }) 0 z = true ∧ mayEnter (cluster0 { staging := [z, z] }) 0 z = false ∧
      clusterRuns inHalt 0 = false ∧ pickFlit (cluster0 {}) 0 = none ∧
      retryNeedsCycle two 0 = true ∧ clusterRuns two 0 = true ∧
      clusterRuns (cluster0 { staging := [f, z] }) 0 = true ∧ retryNeedsCycle (cluster0 { staging := [f, z] }) 0 = false ∧
      (pickFlit (cluster0 { staging := [f, z] }) 0).map (·.1) = some 1 ∧
      canIssue { staging := [f, z] } z = true ∧
      activeStream half 0 = 8 ∧ min 16 (f.done + activeStream half 0) = 8 ∧ (pickFlit half 0).map (·.1) = some 0 ∧
      activeStream (cluster0 { staging := [f] }) 0 = 16 ∧
      ([⟨3, .fold⟩] : List BlockFail).filter (fun b => decide (f.done ≤ b.lane.val) && decide (b.lane.val < 16)) = [⟨3, .fold⟩] ∧
      findReq (getPort (cluster0 {}) 0) 7 = some oneFlit ∧ oneFlit.dead = false ∧
      ran (rt 16 [0]) = [((3, [0]), 16)] ∧ (rt 8 [0]).flit.done ≠ 16 ∧ (rt 16 [0]).flit.done = 16 ∧
      (rt 16 [0]).flit.second = false ∧ ((16 :: [0]).eraseDups).length < 3 ∧
      ran (rt 16 [1, 0]) = [((3, [1, 0]), 16)] ∧ 3 ≤ ((16 :: [1, 0]).eraseDups).length := by decide +kernel

/-- The port of a Currant with one open row of K = 1, and a request that its ENCODE flits belong to. -/
def rowOf (closer : Option Nat) : Row :=
  { no := 0, id := ⟨5, 0, 0, 0⟩, keyidx := 1, kgen := 0, epoch := 0, ck := 1, cm := 1, claimed := 1, passed := 0, accs := [zeros 4112]
    closer := closer, lastAt := 0, parityLeft := 1 }

/-- A Currant that is stopped, one that takes its return half first and then the other input, one with nothing to take, one
that only passes data on; a flit in its second pass, whose lane 5 disagrees in the end; the last flit of a unit. -/
theorem witness_CurrantTakes :
    let q : Req := { rid := 7, sb := header 3 3 1 1 4096, cls := 1, row := some 0 }
    let g : CurFlit := { rid := 7, cls := 1, fromReturn := true, pos := 0, off := 3856, bytes := zeros 256 }
    let h : CurFlit := { g with rid := 8, fromReturn := false }
    let pt (c : Currant) : Port := { st := .enabled, reqs := [q], cur := { c with rows := [rowOf none] } }
    let both : Currant := { fromReturn := [g], fromAdmission := [h] }
    let any : CurFlit → Bool := fun _ => true
    let fenced := setUnit (port0 (pt both)) (srcCurrant 0) { live := .down, mirror := .down }
    let fits := currantFits (port0 (pt both)) 0
    currantRuns inHalt 0 = false ∧ currantPasses inHalt 0 = false ∧ currantRuns (port0 (pt both)) 0 = true ∧
      currantPasses (port0 (pt both)) 0 = false ∧ currantRuns fenced 0 = false ∧ currantPasses fenced 0 = true ∧
      fits g = true ∧ fits h = true ∧
      inputNext fits both.fromReturn = some (g, []) ∧ inputNext fits both.fromAdmission = some (h, []) ∧
      (currantNext any both).map (·.1) = some g ∧ (currantNext any { both with servedReturn := true }).map (·.1) = some h ∧
      currantNext any {} = none ∧ (pt { repass := some g }).cur.repass = some g ∧ findReq (pt both) 7 = some q ∧
      q.dead = false ∧ checkFlit (port0 (pt both)) 0 [] g = none ∧ checkFlit (port0 (pt both)) 0 [⟨5, 1⟩] g = some 5 ∧
      rowNo (port0 (pt both)) 0 q.row = some (rowOf none) ∧ (rowOf none).closer = none ∧
      g.off + g.bytes.length = 4112 := by decide +kernel

/-- A piece that ends with the accumulator; bytes before it. -/
theorem witness_AccumulatorBytes : 2 + [1#8, 2#8].length ≤ [0#8, 0#8, 3#8, 4#8].length ∧ 0 < 2 ∧
    [1#8, 2#8][1]? = some 2#8 ∧ [0#8, 0#8, 3#8, 4#8][2 + 1]? = some 4#8 ∧
    accAdd 1 2 [1, 2] [0, 0, 3, 4] = [0, 0, 2, 6] := by decide +kernel

/-- No entry, a verdict not computed, one computed OK and one that failed; ROW_IDLE at its end and one cycle before. -/
theorem witness_VerdictAndRows :
    let q (v : Verdict) : Req := { rid := 7, ctx := 4095, sb := header 2 5 1 1 256, cls := 1, held := true, verdict := v }
    let ch (v : Verdict) : Chip := port0 { st := .enabled, reqs := [q v] }
    let hit (c : Chip) := (getPort c 0).reqs.find? fun q => decide (q.ctx = 4095) && !q.dead
    let idle (r : Row) : Chip := { port0 { st := .enabled, cur := { rows := [r] } } with cycle := 1000 * rowIdleMs {} * 2000 }
    hit ready = none ∧ hit (ch .pending) = some (q .pending) ∧
      hit (ch (.computed none)) = some (q (.computed none)) ∧ hit (ch (.computed (some 0))) = some (q (.computed (some 0))) ∧
      findReq (getPort (ch (.computed none)) 0) 7 = some (q (.computed none)) ∧
      findRow (idle (rowOf none)) 0 (rowOf none).id = some (rowOf none) ∧ findRow ready 0 (rowOf none).id = none ∧
      (rowOf none).lastAt + 1000 * rowIdleMs ready.cfg * usCycles ready ≤ (idle (rowOf none)).cycle ∧
      (idle (rowOf none)).cycle - 1 < (rowOf none).lastAt + 1000 * rowIdleMs ready.cfg * usCycles ready ∧
      (rowOf (some 7)).closer ≠ none := by decide +kernel

/-- Damson with a current lease at sub-lease 65,535, past its end with and without a next lease; the next register to fill
while every CUR is filled first and when not; reservations verified on one
and both devices, by reason. -/
theorem witness_LeasesHandedOut :
    let m (sub : Nat) (nx : Option (Nat × Nat)) : Damson := { current := some (5, 0), next := nx, sub := sub }
    let r (ok1 : Bool) (why : Nat) : Reservation :=
      { lease := 6, reason := why, prev := 5, slot := 0, grouped := false, ok0 := true, ok1 := ok1 }
    let served (filling : Bool) : Chip :=
      { setCluster ready 0 { cur := some ⟨5, 0, 0, 0⟩ } with damson := { m 1 none with filling := filling } }
    refillHeld (m 0 none) = false ∧ refillTarget ready = some (0, true) ∧ nextSub (m 65535 none) = some (5, 0, 65535) ∧
      nextSub (m 65536 none) = none ∧ nextSub (m 65536 (some (6, 0))) = some (6, 0, 0) ∧
      refillHeld { m 0 none with res := some (r true 2) } = true ∧ ((r false 1).ok0 && (r false 1).ok1) = false ∧
      (r true 1).ok1 = true ∧ ({ m 0 none with change := some (0, false) } : Damson).change = some ((r true 3).slot, (r true 3).grouped) ∧
      (m 0 none).change ≠ some ((r true 2).slot, (r true 2).grouped) ∧ (r true 2).reason = 2 ∧ (r true 1).reason ≠ 2 ∧
      ({ } : Damson).current = none ∧ refillHeld { m 0 none with resume := true } = true ∧
      refillTarget (served false) = some (0, false) ∧ refillTarget (served true) = some (1, true) ∧
      ready.pfail = false ∧ ({ m 0 none with res := some (r true 1), blocked := true } : Damson).blocked = true ∧
      leaseBusy ready = false ∧ nowUs { ready with cycle := 1000000 * 2000 } = 0 + 1000000 ∧
      nowUs { ready with cycle := 1000000 * 2000 - 1 } < 0 + 1000000 := by decide +kernel

/-- A verified lease waits as the next one; the current one goes on (R140). -/
theorem test_lease_waits :
    let r : Reservation := { lease := 6, reason := 1, prev := 5, slot := 0, grouped := false, ok0 := true, ok1 := true }
    let s := on { ready with damson := { current := some (5, 0), sub := 0x8000, res := some r } }
    nextIs (exec .leaseReserved s) (fun t => decide (t.chip.damson.current = some (5, 0)) &&
      decide (t.chip.damson.next = some (6, 0)) && decide (t.chip.damson.highest = some 6) && decide (t.aon.shadow = 6)) = true := by
  decide +kernel

/-- The last byte of a sector, and the sector after it. -/
theorem witness_FlashBytes : [1#8, 2#8][1]? = some 2#8 ∧ (0x0FFFF : Nat) / 0x10000 = 0x0FFFE / 0x10000 ∧
    (0x10000 : Nat) / 0x10000 ≠ 0x0FFFE / 0x10000 ∧ 0x10000 < 0x10001 := by decide

/-- Programming only clears bits; erasing sets the sector and no other (R419). -/
theorem test_flash : flashRead (flashProgram (flashProgram [] 0xFFFF [0x0F, 0xAA]) 0xFFFF [0x3C]) 0xFFFE 3 = [0xFF, 0x0C, 0xAA] ∧
    flashRead (flashErase (flashProgram [] 0xFFFF [0x0F, 0xAA]) 0xFFFF) 0xFFFF 2 = [0xFF, 0xAA] := by decide +kernel

/-- The first dirPage of a directory with this CRC. -/
def dirPage (c : BitVec 32) : FlitData :=
  BitVec.ofNat 2048 0x152494444 ||| (Config.deviceId.setWidth 2048 <<< 64) ||| (c.setWidth 2048 <<< 480)

theorem dirPage_low (c : BitVec 32) (j : Nat) (h : j < 480) : (dirPage c).getLsbD j = (dirPage 0).getLsbD j := by
  simp [dirPage, h]

theorem dirPage_read (c : BitVec 32) (n : Nat) (hn : n ≤ 60) : flashRead [(0, dirPage c)] 0 n = flashRead [(0, dirPage 0)] 0 n := by
  apply List.map_congr_left
  intro i hi
  have hi : i < n := by simpa using hi
  have h0 : (0 + i) / 256 = 0 := by omega
  simp only [flashPage, h0]
  show (dirPage c).extractLsb' _ 8 = (dirPage 0).extractLsb' _ 8
  ext j hj
  simp only [BitVec.getElem_extractLsb']
  exact dirPage_low c _ (by omega)

theorem flashRead_split (f : Tbl FlitData) : flashRead f 0 64 = flashRead f 0 60 ++ flashRead f 60 4 := by
  simp [flashRead, List.range_succ]

theorem dirPage_crc (c : BitVec 32) : ofLE (flashRead [(0, dirPage c)] 60 4) = c.toNat := by
  have hb (i : Nat) (hi : i < 4) : ((dirPage c).extractLsb' (8 * (60 + i)) 8) = c.extractLsb' (8 * i) 8 := by
    ext j hj
    simp only [BitVec.getElem_extractLsb', dirPage, BitVec.getLsbD_or, BitVec.getLsbD_shiftLeft, BitVec.getLsbD_setWidth,
      BitVec.getLsbD_ofNat]
    have h1 : 8 * (60 + i) + j < 2048 := by omega
    have h2 : ¬ 8 * (60 + i) + j < 480 := by omega
    have h3 : 8 * (60 + i) + j - 480 = 8 * i + j := by omega
    have h4 : Config.deviceId.getLsbD (8 * (60 + i) + j - 64) = false := BitVec.getLsbD_of_ge _ _ (by omega)
    have h5 : Nat.testBit 0x152494444 (8 * (60 + i) + j) = false :=
      Nat.testBit_lt_two_pow (Nat.lt_of_lt_of_le (by decide : 0x152494444 < 2 ^ 64) (Nat.pow_le_pow_right (by decide) (by omega)))
    simp [h1, h2, h3, h4, h5]
    intro _; omega
  have e : flashRead [(0, dirPage c)] 60 4 = (List.range 4).map fun i => c.extractLsb' (8 * i) 8 := by
    apply List.map_congr_left
    intro i hi
    have hi : i < 4 := by simpa using hi
    have h0 : (60 + i) / 256 = 0 := by omega
    have h1 : (60 + i) % 256 = 60 + i := by omega
    simp only [flashPage, h0, h1]
    exact hb i hi
  rw [e]
  simp [List.range_succ, ofLE, BitVec.extractLsb'_toNat, Nat.shiftRight_eq_div_pow]
  have := c.isLt
  omega

theorem dirPage_header (c : BitVec 32) : (flashRead [(0, dirPage c)] 0 60).take 4 = [0x44, 0x44, 0x49, 0x52] ∧
    (flashRead [(0, dirPage c)] 0 60).getD 4 0 = 1 := by
  have hb (i : Nat) (hi : i < 5) : ((dirPage c).extractLsb' (8 * i) 8) = (0x152494444#64).extractLsb' (8 * i) 8 := by
    ext j hj
    simp only [BitVec.getElem_extractLsb', dirPage, BitVec.getLsbD_or, BitVec.getLsbD_shiftLeft, BitVec.getLsbD_setWidth,
      BitVec.getLsbD_ofNat]
    have h1 : 8 * i + j < 64 := by omega
    have h2 : 8 * i + j < 480 := by omega
    have h3 : 8 * i + j < 2048 := by omega
    simp [h1, h2, h3]
  have e (i : Nat) (hi : i < 5) : (flashRead [(0, dirPage c)] 0 60)[i]? = some ((0x152494444#64).extractLsb' (8 * i) 8) := by
    have h0 : (0 + i) / 256 = 0 := by omega
    have h1 : (0 + i) % 256 = i := by omega
    simp only [flashRead, List.getElem?_map, List.getElem?_range (show i < 60 by omega), Option.map_some, flashPage, h0, h1]
    exact congrArg some (hb i hi)
  refine ⟨List.ext_getElem? fun i => ?_, ?_⟩
  · rcases Nat.lt_or_ge i 4 with h | h
    · rw [List.getElem?_take_of_lt h, e i (by omega)]
      have : i = 0 ∨ i = 1 ∨ i = 2 ∨ i = 3 := by omega
      rcases this with rfl | rfl | rfl | rfl <;> decide
    · rw [List.getElem?_eq_none (by simp; omega), List.getElem?_eq_none (by simpa using h)]
  · rw [List.getD_eq_getElem?_getD, e 4 (by omega)]; decide

theorem bvBytes_eq (n : Nat) {w : Nat} (v : BitVec w) : bvBytes n v = (List.range n).map fun i => v.extractLsb' (8 * i) 8 := by
  unfold bvBytes
  induction n generalizing w with
  | zero => rfl
  | succ n ih =>
    rw [List.range_succ_eq_map, List.map_cons, List.map_map, toLE]
    congr 1
    · have h := ih (v >>> 8)
      rw [BitVec.toNat_ushiftRight, Nat.shiftRight_eq_div_pow] at h
      simp only [show (2:Nat) ^ 8 = 256 from rfl] at h
      rw [h]
      apply List.map_congr_left
      intro i _
      apply BitVec.eq_of_toNat_eq
      simp only [Function.comp, BitVec.extractLsb'_toNat, BitVec.toNat_ushiftRight, ← Nat.shiftRight_add]
      rw [show 8 + 8 * i = 8 * (i + 1) by omega]

theorem dirPage_id (c : BitVec 32) : flashRead [(0, dirPage c)] 8 16 = deviceIdBytes := by
  rw [deviceIdBytes, bvBytes_eq]
  apply List.map_congr_left
  intro i hi
  have hi : i < 16 := by simpa using hi
  have h0 : (8 + i) / 256 = 0 := by omega
  have h1 : (8 + i) % 256 = 8 + i := by omega
  simp only [flashPage, h0, h1]
  show (dirPage c).extractLsb' _ 8 = _
  ext j hj
  simp only [BitVec.getElem_extractLsb', dirPage, BitVec.getLsbD_or, BitVec.getLsbD_shiftLeft, BitVec.getLsbD_setWidth,
    BitVec.getLsbD_ofNat]
  have h2 : 8 * (8 + i) + j < 2048 := by omega
  have h3 : ¬ 8 * (8 + i) + j < 64 := by omega
  have h4 : 8 * (8 + i) + j < 480 := by omega
  have h5 : 8 * (8 + i) + j - 64 = 8 * i + j := by omega
  have h6 : Nat.testBit 0x152494444 (8 * (8 + i) + j) = false :=
    Nat.testBit_lt_two_pow (Nat.lt_of_lt_of_le (by decide : 0x152494444 < 2 ^ 64) (Nat.pow_le_pow_right (by decide) (by omega)))
  simp [h2, h3, h4, h5, h6]
  intro _; omega

/-- A device whose directory is this device's own. -/
theorem witness_directory : ∃ c, directoryMine [(0, dirPage c)] = true := by
  let low := flashRead [(0, dirPage 0)] 0 60
  have hl : low.length = 60 := by simp [low, flashRead]
  refine ⟨crc32 low, ?_⟩
  have hr : flashRead [(0, dirPage (crc32 low))] 0 64 = low ++ flashRead [(0, dirPage (crc32 low))] 60 4 := by
    rw [flashRead_split, dirPage_read _ 60 (by omega)]
  have h4 : (low ++ flashRead [(0, dirPage (crc32 low))] 60 4).take 4 = [0x44, 0x44, 0x49, 0x52] := by
    rw [List.take_append_of_le_length (by omega)]; exact (dirPage_header 0).1
  have hv : (low ++ flashRead [(0, dirPage (crc32 low))] 60 4).getD 4 0 = 1 := by
    have := (dirPage_header 0).2
    rw [List.getD_eq_getElem?_getD] at this ⊢
    rw [List.getElem?_append_left (by omega)]; exact this
  have hd : (low ++ flashRead [(0, dirPage (crc32 low))] 60 4).drop 60 = flashRead [(0, dirPage (crc32 low))] 60 4 := by
    rw [List.drop_append_of_le_length (by omega), List.drop_of_length_le (by omega), List.nil_append]
  have ht : (low ++ flashRead [(0, dirPage (crc32 low))] 60 4).take 60 = low := by
    rw [List.take_append_of_le_length (by omega), List.take_of_length_le (by omega)]
  simp only [directoryMine, directoryValid, hr, h4, hv, hd, ht, dirPage_crc, dirPage_id, decide_true, Bool.and_true]

/-- A bus with no operation, a program, an erase at its intent record, in a sector of the ring that is erased and in one that is
not, and at the erase itself; the limits of Table 19.1, doubled, at the end and before it; a recovery at its end. -/
theorem witness_FlashOperationsEnd :
    let prog : FlashOp := { owner := .recorder, tag := .pip, addr := 0x4000000, bytes := some (zeros 32) }
    let er (ph : ErasePhase) (tries : Nat) : FlashOp :=
      { owner := .quince, tag := .stageErase, addr := 0x100000, bytes := none, phase := ph, tries := tries }
    let mid : Xspi := { intentPos := 5, bus := some (er .intent 0) }
    (∃ c, directoryMine (getFlash { on ready with flash0 := [(0, dirPage c)] } 0) = true) ∧ ({ } : Xspi).queue = [] ∧
      ({ } : Xspi).recovery = none ∧ ({ } : Xspi).bus = none ∧ mid.badProgs.length < 16 ∧
      inRing 0x100000 = false ∧ eraseAt mid (er .intent 0) = none ∧ eraseAt {} (er .intent 0) = some intentBase ∧
      eraseAt mid (er .erase 0) = some 0x100000 ∧ eraseAt mid prog = none ∧ prog.bytes = some (zeros 32) ∧
      prog.tag ≠ .boot ∧ prog.tag ≠ .group ∧ (er .erase 1).tries + 1 < 3 ∧ ¬ (er .erase 2).tries + 1 < 3 ∧
      opLimitUs mid prog = 600 ∧ opLimitUs mid (er .erase 0) = 80000 ∧ 0 + opLimitUs mid prog * usCycles ready = 1200000 ∧
      ({ recovery := some recoveryEnd } : Xspi).recovery = some recoveryEnd ∧ directoryMine [] = false := by
  refine ⟨witness_directory, ?_⟩
  decide +kernel

/-- 100 ms, and one cycle less; each half empty or not; the last log position and the one before it. -/
theorem witness_RecorderHalves :
    let late : Chip := { ready with cycle := 100000 * 2000 }
    let r : Recorder := { filling := [1], since := 0 }
    r.filling ≠ [] ∧ r.since + 100000 * usCycles late ≤ late.cycle ∧ late.cycle - 1 < r.since + 100000 * usCycles late ∧
      r.waiting = false ∧ r.handed = [] ∧ r.wpos ≠ logSize - 1 ∧ ({ r with handed := [1] } : Recorder).handed ≠ [] ∧
      r.left = 0 ∧ r.paused = false ∧ r.clearing = none ∧ logSize ≤ ({ r with wpos := logSize } : Recorder).wpos ∧
      ({ r with wpos := logSize - 2 } : Recorder).wpos + 1 < logSize := by decide +kernel

/-- Slots ACTIVE, RETIRING, CLEARING and EMPTY at KGEN 255; 8 and 9 bad bytes; the end of a session, an allowance
and a lockout, and 1 µs before. -/
theorem witness_KeyTimesEnd :
    let ch : Chip := { ready with
      cycle := 50 * 2000
      keys := {
        desc := [(1, mkDesc 2 5 0 1 0 31 0 0 0 0 0), (2, mkDesc 3 5 0 1 0 31 0 0 0 0 0), (1048575, mkDesc 4 5 255 1 0 31 0 0 0 0 0)]
        ldesc := [(1, mkLineDesc 2 5 0 1 false false 0), (4095, mkLineDesc 4 5 255 1 false false 0)]
        session := { num := 3, state := 1, expiry := 50 }
        offA := { allowUntil := some 50, lockUntil := some 51 } } }
    dState (slotDesc ch 1) = 2 ∧ dState (slotDesc ch 2) = 3 ∧ dState (slotDesc ch 1048575) = 4 ∧
      dKgen (slotDesc ch 1048575) = 255 ∧ dState (slotDesc ch 0) = 0 ∧ ldState (lineDesc ch 1) = 2 ∧
      ldState (lineDesc ch 4095) = 4 ∧ ldLgen (lineDesc ch 4095) = 255 ∧ sessionOpen ch.keys.session = true ∧
      ch.keys.session.expiry ≤ nowUs ch ∧ nowUs { ch with cycle := 50 * 2000 - 1 } < ch.keys.session.expiry ∧
      ((List.range 8).map (Fin.ofNat 80)).eraseDups.length = 8 ∧ ((List.range 9).map (Fin.ofNat 80)).eraseDups.length = 9 ∧
      sessionBusy ch = false ∧ ch.fw.handover = false ∧ ({ ch with fw := { handover := true } } : Chip).fw.handover = true ∧
      (getOfficer ch 0).allowUntil = some 50 ∧ nowUs ch = 50 ∧ (getOfficer ch 0).lockUntil = some 51 ∧
      (getOfficer ch 1).lockUntil = none := by decide +kernel

/-- KGEN wraps at the end of CLEARING (R117). -/
theorem test_kgen_wraps : nextIs (exec (.keyClearingDone (.slot 9)) (on { ready with keys := {
    desc := [(9, mkDesc 4 5 255 1 0 31 0 0 0 0 0)] } })) (fun t => decide (slotDesc t.chip 9 = 0)) = true := by decide +kernel

/-! ### Lines, ranges, generations -/

/-- A region entry: KIND, BASE and LIMIT in 4 KiB blocks, current and next key entry, REKEY. -/
def region (kind base limit ckey nkey : Nat) (rekey : Bool) : BitVec 256 :=
  BitVec.ofNat 256 (field 216 40 base ||| field 176 40 limit ||| field 118 12 ckey ||| field 106 12 nkey ||| field 72 10 5 |||
    field 70 2 kind ||| field 69 1 1 ||| field 68 1 (if rekey then 1 else 0))

/-- Region 0 (lines 0 to 1,023, key entry 0) and region 1 (lines 1,024 to 2,047, key entry 1), and what of it varies. -/
def lineChip (st : PortState) (sweep0 : Sweep) (rekey : Bool) (job : LineJob) : Chip :=
  let c := [(0, region 1 0 15 0 2 rekey), (1, region 1 16 31 1 0 false), (2, region 2 32 32 0 0 false)].foldl
    (fun c x => setRegion c x.1 x.2) { tenants := [(5, { lkeySize := 8 })] }
  let ch : Chip := { ready with
    cfg := c, keys := { ck := some (run 9 64) }, ljobs := if rekey then [(0, some job)] else [], rng := { seeded := true } }
  let keys := [(0, mkLineDesc 2 5 0 1 false true 0), (1, mkLineDesc 3 5 0 1 false true 0), (2, mkLineDesc 2 5 0 1 false true 0)]
  setSweep (keys.foldl (fun ch x => setLineDesc ch x.1 x.2) (setLine ch 0 { st := st })) 0 sweep0

/-- A job of region 0 at line 512 with a window of 64 lines. -/
def aJob : LineJob := { region := 0, rb := 512, re := 576, win := 1, done := [], paused := false, swapAt := none }

/-- A request that a line's failed block is reported with: block 1 of line 0, on this slice. -/
def blockFail (slice : Fin 9) : LineFail := { addr := 0, block := 1, slice := slice, site := .multiply }

/-- Each outcome of the lookup, with the last line below a boundary and the first at it: SWEEP at 512, a window from 512 to
576; FQ_READY low by each of its four grounds; 31 and 32 lines queued, with and without background work due; entries that
agree with their copies and entries that do not; a key read with 8 and with 9 bad bytes; a block that failed once, on the
standby too, and a third time. -/
theorem witness_LineRequestLookup :
    let w : Sweep := { bound := 512, state := 1 }
    let ch := lineChip .enabled { bound := 1024 } false aJob
    let half := lineChip .enabled w false aJob
    let moving := lineChip .enabled { bound := 1024 } true aJob
    let q (write : Bool) (a : Nat) : LineRequest := { write := write, addr := BitVec.ofNat 46 a, kidx := 0, tag := 1, data := 0 }
    let op : LineOp := { kind := .host, write := true, addr := 5, tag := 3, region := 0, entry := 0, lgen := 0, key := [], gen := 0 }
    let lines (ch : Chip) (n : Nat) := setLine ch 0 { st := .enabled, clk := true, lane0 := { mq := List.replicate n op } }
    let stopped := (List.range 9).foldl (fun ch i => setUnit ch (srcLineSlice 0 i) { live := .down, mirror := .down }) ch
    let lostBytes (n : Nat) : List (Fin 4096 × Fin 80) := (List.range n).map fun i => (0, Fin.ofNat 80 i)
    halted inHalt = true ∧ lookup inHalt 0 (q false 0) = .refuse 0xFE ∧
      portServes (lineChip .fenced w false aJob) 0 = false ∧ portServes ch 0 = true ∧ lineStalled ch 0 = false ∧
      lineStalled stopped 0 = true ∧ issueOwn {} ch 0 = ch ∧
      portServes (setUnit ch (srcLine 0) { live := .down, mirror := .down }) 0 = false ∧
      portServes (setUnit ch (srcGroup 0) { live := .down, mirror := .down }) 0 = false ∧
      linePortOf ch.cfg 0 = 0 ∧ linePortOf ch.cfg 1 ≠ 0 ∧ lookup ch 0 (q false 1) = .refuse 0x03 ∧
      findRegion ch.cfg 4096 = none ∧ findRegion ch.cfg 0 = some (0, region 1 0 15 0 2 false) ∧
      (findRegion ch.cfg 2048).map (·.1) = some 2 ∧ rgKind (region 2 32 32 0 0 false) ≠ 1 ∧
      lookup ch 0 { q false 0 with kidx := 1 } = .serve 0 0 ∧
      lineEntry moving (region 1 0 15 0 2 true) 511 = some 2 ∧ lineEntry moving (region 1 0 15 0 2 true) 512 = none ∧
      lineEntry moving (region 1 0 15 0 2 true) 575 = none ∧ lineEntry moving (region 1 0 15 0 2 true) 576 = some 0 ∧
      lookup moving 0 (q false 512) = .hold ∧ lookup moving 0 (q false 512) true = .serve 0 0 ∧
      ldState (lineDesc ch 1) ≠ 2 ∧ lookup ch 0 (q false 1024) = .refuse 0x10 ∧ (getSweep half 0).bound ≤ 512 ∧
      lookup half 0 (q false 512) = .zero ∧ lookup half 0 (q true 512) = .refuse 0x51 ∧
      480 < (getSweep half 0).bound ∧ lookup half 0 (q true 480) = .serve 0 0 ∧
      ({ held := List.replicate 32 (q false 0) } : Lane).held.length = 32 ∧
      ({ fq := List.replicate 32 { lane := 0, req := q false 0 } } : LinePort).fq.length = 32 ∧
      ch.cycle < ({ fqStall := 1 } : LinePort).fqStall ∧ ({ } : LinePort).fq = [] ∧
      hostRoom (lines ch 31) 0 = true ∧ hostRoom (lines ch 32) 0 = false ∧ hostRoom (lines half 30) 0 = true ∧
      hostRoom (lines half 31) 0 = false ∧ lineClash ch 0 (q false 0) = none ∧ lineClash ch 0 (q false 4096) = none ∧
      lineClash { ch with sweepsInv := [] } 0 (q false 0) = some (0x12, 0) ∧
      lineClash { ch with keys := { ch.keys with ldescInv := [] } } 0 (q false 0) = some (0x11, 0) ∧
      (readEntry ch 0 0 []).2 = true ∧ (readEntry ch 0 0 (lostBytes 8)).2 = true ∧ (readEntry ch 0 0 (lostBytes 9)).2 = false ∧
      (lineTries ch 0 0 []).met = [] ∧ (lineTries ch 0 64 [blockFail 2]).worst = 0 ∧ (lineTries ch 0 0 [blockFail 2]).worst = 1 ∧
      (lineTries ch 0 0 [blockFail 2]).slots = 0 ∧ (lineTries ch 0 0 [blockFail 2, blockFail 8]).worst = 2 ∧
      (lineTries ch 0 0 [blockFail 2, blockFail 8]).slots = 1 ∧ (lineTries ch 0 0 [blockFail 2, blockFail 3]).worst = 1 ∧
      (lineTries ch 0 0 [blockFail 2, blockFail 8, blockFail 3]).worst = 3 := by decide +kernel

/-- The request on MQ: a host's, a background one within its budget before it and one that waits at SWEEP_SHARE, for a write
and a read; data for the oldest read: MD_READY low, the tags that match and that do not, each MD_ECC, a block that failed on
three slices. -/
theorem witness_LineAccessEnds :
    let o (kind : LineKind) (write : Bool) : LineOp :=
      { kind := kind, write := write, addr := 0, tag := 3, region := 0, entry := 0, lgen := 0, key := run 1 64, gen := 0 }
    let d (tag : Nat) (mac : BitVec 32) (ecc : Nat) : LineReturn :=
      { tag := BitVec.ofNat 9 tag, data := 0, metadata := mac, ecc := BitVec.ofNat 2 ecc }
    let l : Lane := { mq := [o .host true], reads := [o .host false], aborted := [511] }
    let port (l : Lane) (n : Nat) : LinePort := { st := .enabled, lane0 := l, bgWrites := List.replicate n 0 }
    let at_ (l : Lane) (n : Nat) : Chip := setLine ready 0 (port l n)
    let mac := macOfLine (o .host false).key 0 0 (bvBytes 64 (0 : BitVec 512))
    let share := sweepShare ready.cfg
    mqHead (at_ l 0) 0 0 = some (o .host true) ∧ mqHead (at_ { l with mq := [o .host false] } 0) 0 0 = some (o .host false) ∧
      bgHead (at_ l 0) (port l 0) 0 = none ∧ mqHead (at_ {} 0) 0 0 = none ∧
      bgHead (at_ { l with bg := [o .sweep true] } 0) (port { l with bg := [o .sweep true] } (share - 1)) 0 = some (o .sweep true) ∧
      bgHead (at_ { l with bg := [o .sweep true] } 0) (port { l with bg := [o .sweep true] } share) 0 = none ∧
      mqHead (at_ { l with bg := [o .sweep true] } 0) 0 0 = some (o .sweep true) ∧
      mqHead (at_ { l with bg := [o .rekey true] } 0) 0 0 = some (o .rekey true) ∧
      mqHead (at_ { l with bg := [o .rekey false] } 0) 0 0 = some (o .rekey false) ∧ halted (at_ l 0) = false ∧
      mqHead (at_ { l with bg := [o .own true] } 0) 0 0 = some (o .own true) ∧
      inBudget (at_ l 0) (port l (share - 1)) (o .sweep true) = true ∧ inBudget (at_ l 0) (port l share) (o .sweep true) = false ∧
      (at_ l 0).cycle < ({ port l 0 with mdStall := 1 }).mdStall ∧ (port l 0).mdStall ≤ (at_ l 0).cycle ∧
      (d 511 0 0).tag.toNat ∈ l.aborted ∧ (d 4 0 0).tag.toNat ∉ l.aborted ∧ (∀ x ∈ l.reads, x.tag ≠ (d 4 0 0).tag.toNat) ∧
      (d 3 0 0).tag.toNat ∉ l.aborted ∧
      takeFirst (fun o => decide (o.tag = (d 3 0 0).tag.toNat)) l.reads = some (o .host false, []) ∧
      (lineTries (at_ l 0) 0 0 [blockFail 2, blockFail 8, blockFail 3]).worst = 3 ∧
      (lineTries (at_ l 0) 0 0 [blockFail 2, blockFail 8]).worst = 2 ∧ lineStalled (at_ l 0) 0 = false ∧ issueOwn {} (at_ l 0) 0 = at_ l 0 ∧
      2 ≤ (d 3 0 2).ecc.toNat ∧ 2 ≤ (d 3 0 3).ecc.toNat ∧ (d 3 0 1).ecc.toNat < 2 ∧
      macOfLine (o .host false).key (o .host false).addr (o .host false).lgen (bvBytes 64 (d 3 mac 1).data) = (d 3 mac 1).metadata ∧
      macOfLine (o .host false).key 0 0 (bvBytes 64 (d 3 (mac + 1) 1).data) ≠ (d 3 (mac + 1) 1).metadata := by decide +kernel

/-- A sweep with a line to write and room for it, and with SWEEP_SHARE lines queued; a window pending, clear, with a request of
the fabric in it, taken or waiting for its lookup, and with a port that does not serve; a job with a line to read; a swap at its
time, 1 µs before, and with two generations live; a retry at 1 s and before, at the budget and below it; an access of Dolha's own
to a VITAL region. -/
theorem witness_LineBackgroundWork :
    let sweeping := setLine (lineChip .enabled { bound := 0, state := 1 } false aJob) 0 { st := .enabled, clk := true }
    let op (kind : LineKind) : LineOp :=
      { kind := kind, write := true, addr := 575, tag := 3, region := 0, entry := 0, lgen := 0, key := [], gen := 0 }
    let busy (n : Nat) := setLine sweeping 0 { st := .enabled, clk := true, lane1 := { bg := List.replicate n (op .sweep) } }
    let job (j : LineJob) := lineChip .enabled { bound := 1024 } true j
    let serving (j : LineJob) := (List.range 32).foldl (fun ch p => setLine ch p { st := .enabled, clk := true }) (job j)
    let swap := { job { aJob with rb := 1024, re := 1024, win := 0, swapAt := some 50 } with cycle := 50 * 2000 }
    let idle := { lineChip .enabled { bound := 1024 } false aJob with cycle := 1000005 * 2000, quince := { noKey := [(0, 5)] } }
    let waiting : WaitingLine := { lane := 0, req := { write := false, addr := 575, kidx := 0, tag := 1, data := 0 } }
    let vital := setSweep (setLine sweeping (linePortOf sweeping.cfg 2048) { st := .enabled, clk := true }) 2 { bound := 2112 }
    let own (write : Bool) : LineMeets := { own := some { region := 2, write := write, addr := 2048, data := 7 } }
    sweepNext sweeping 0 = 0 ∧ sweepReady sweeping 0 0 = true ∧ bgRoom sweeping 0 .sweep = true ∧
      bgRoom (busy (sweepShare {} - 1)) 0 .sweep = true ∧ bgRoom (busy (sweepShare {})) 0 .sweep = false ∧
      sweepReady (job aJob) 0 0 = false ∧ (lineTries sweeping 0 0 []).worst < 3 ∧
      (lineTries sweeping 0 0 [blockFail 2, blockFail 8, blockFail 3]).worst = 3 ∧
      regionJob sweeping 0 = none ∧ regionJob (job aJob) 0 = some (0, aJob) ∧ aJob.win = 1 ∧
      jobPortsServe (serving aJob) aJob = true ∧ jobPortsServe (job aJob) aJob = false ∧
      windowClear (serving aJob) aJob = true ∧ windowClear (setLine (job aJob) 9 { lane1 := { mq := [op .host] } }) aJob = false ∧
      windowClear (setLine (job aJob) 9 { fq := [{ waiting with early := true }] }) aJob = false ∧
      rekeyReady (serving { aJob with win := 2 }) { aJob with win := 2 } (linePortOf {} 512) = true ∧
      rekeyReady (serving aJob) aJob (linePortOf {} 512) = false ∧ rekeyNext (serving aJob) aJob = 512 ∧
      bgRoom (serving aJob) (linePortOf {} 512) .rekey = true ∧ bgRoom (job aJob) (linePortOf {} 513) .rekey = false ∧
      nowUs swap = 50 ∧ nowUs { swap with cycle := 50 * 2000 - 1 } < 50 ∧ swap.live2 = false ∧ aJob.swapAt = none ∧
      nowUs idle = 5 + 1000000 ∧ nowUs { idle with cycle := 1000005 * 2000 - 1 } < 5 + 1000000 ∧ idle.fw.handover = false ∧
      overBudget idle 0 = true ∧ overBudget (setLineDesc idle 0 (mkLineDesc 2 5 0 1 false true 1)) 0 = false ∧
      drawTarget idle (regionOf idle.cfg 0) = some 3 ∧ jobRefusal idle 0 = none ∧ keepRoom idle (regionOf idle.cfg 0) = true ∧
      rgKind (regionOf idle.cfg 0) ≠ 0 ∧ rgRekey (regionOf idle.cfg 0) = false ∧ idle.keys.ck.isSome = true ∧
      idle.rng.seeded = true ∧ idle.live2 = false ∧ rgRekey (regionOf swap.cfg 0) = true ∧ rgKind (regionOf idle.cfg 9) = 0 ∧
      rgKind (regionOf vital.cfg 2) = 2 ∧ rgFirst (regionOf vital.cfg 2) = 2048 ∧ 2048 ≤ rgLast (regionOf vital.cfg 2) ∧
      2048 < (getSweep vital 2).bound ∧ bgRoom vital (linePortOf vital.cfg 2048) .own = true ∧
      lineEntry vital (regionOf vital.cfg 2) 2048 = some 0 ∧ ldState (lineDesc vital 0) = 2 ∧
      (readEntry vital (linePortOf vital.cfg 2048) 0 (own true).bad).2 = true ∧
      (lineTries vital (linePortOf vital.cfg 2048) 2048 (own true).fails).worst < 3 ∧
      ((own true).own.map fun o => o.addr.toNat) = some 2048 ∧ ((own false).own.map fun o => o.write) = some false := by
  decide +kernel

/-- A retry at 1 s draws the successor into the lowest EMPTY entry of the quota and starts the job (R218). -/
theorem test_rekey_retry :
    let idle := { lineChip .enabled { bound := 1024 } false aJob with cycle := 1000005 * 2000, quince := { noKey := [(0, 5)] } }
    nextIs (exec (.rekeyNoKeyRetry 0) (on idle)) (fun t => rgRekey (regionOf t.chip.cfg 0) &&
      decide (rgNkey (regionOf t.chip.cfg 0) = 3) && decide (ldState (lineDesc t.chip 3) = 2) && t.chip.live2) = true := by
  decide +kernel

/-- An access of Dolha's own enters the slices with bit 8 of its tag set (R184, R192). -/
theorem test_own_access :
    let ch := setLine (setSweep (lineChip .enabled { bound := 1024 } false aJob) 2 { bound := 2112 }) (linePortOf {} 2048)
      { st := .enabled, clk := true }
    let met : LineMeets := { own := some { region := 2, write := false, addr := 2048, data := 0 } }
    ((getLine (issueOwn met ch (linePortOf {} 2048)) (linePortOf {} 2048)).lane0.bg.map fun o => (o.kind, o.tag, o.addr)) =
      [(.own, 256, 2048)] := by decide +kernel

/-- A live range of units 0 to 19 in the state given. -/
def aRange (st : RangeState) (b : Nat) (win : Option Window) (pausing : Bool) : Range :=
  { tenant := 5, epoch := 0, o := 1, ogen := 0, n := 2, ngen := 0, lo := 0, hi := 19, b := b, st := st, fseq := 3, win := win
    pausing := pausing }

/-- A chip with one range, job 4,095. -/
def ranged (r : Range) : Chip := { ready with ranges := [(4095, some r)] }

/-- FETCH_OUT windows out and one fewer; a job that wants a window; a window pending, open and overlapped. -/
theorem witness_RangeWindowsOpen :
    let w : Window := { e := 20 }
    let full : Chip := { ready with ranges := (List.range 64).map fun i => (i, some (aRange .window 0 (some w) false)) }
    let q : Req := { sb := BitVec.ofNat 256 (header 1 1 1 1 512).toNat, uses := [(1, { slot := 1, mode := 1, unit := 4096 })] }
    let meeting := setPort (ranged (aRange .window 0 (some w) false)) 0 { reqs := [q] }
    fetchOut ready.cfg ≤ windowsOut full ∧ windowsOut { full with ranges := full.ranges.drop 1 } < fetchOut ready.cfg ∧
      nextWindowJob ready = none ∧ nextWindowJob (ranged (aRange .opened 19 none false)) = some 4095 ∧
      nextWindowJob (ranged (aRange .opened 20 none false)) = none ∧
      getRange (ranged (aRange .opened 19 none false)) 4095 = some (aRange .opened 19 none false) ∧
      overlaps (ranged (aRange .window 0 (some w) false)) (aRange .window 0 (some w) false) 20 = false ∧
      overlaps meeting (aRange .window 0 (some w) false) 20 = true ∧ w.isOpen = false ∧
      (aRange .opened 0 none false).win = none := by decide +kernel

/-- A fetch queue with and without an entry; a DONE that names the window, one that does not; the range's last window and one
before it; FETCH_LIMIT at its end and 1 µs before, with the BRAMBLE_OUT not begun, under way and driven, and with its request
served and ended. -/
theorem witness_RangeFetches :
    let w : Window := { e := 20, isOpen := true, fseq := 3, outBegun := true, outDone := true }
    let r (e : Nat) := aRange .window 0 (some { w with e := e }) false
    let data : Word64 := BitVec.ofNat 64 (4095 + 3 * 2 ^ 16)
    let q : Req := { rid := 7, job := some 4095, jobSeq := 3 }
    returnServed (port0 { reqs := [q] }) 4095 w = true ∧ returnServed (port0 { reqs := [{ q with dead := true }] }) 4095 w = false ∧
      returnServed (port0 { reqs := [{ q with jobSeq := 2 }] }) 4095 w = false ∧ w.isOpen = true ∧ w.outBegun = true ∧
      ready.ctl.hostReset = false ∧ ready.ctl.stall = none ∧ fld data 0 12 = 4095 ∧ fld data 16 16 = 3 ∧
      getRange (ranged (r 20)) 4095 = some (r 20) ∧ w.outDone = true ∧ w.fseq = fld data 16 16 ∧ (r 20).hi < 20 ∧ 19 ≤ (r 19).hi ∧
      ({ ready with fetchQ := [(4095, 1)] } : Chip).fetchQ = (4095, 1) :: [] ∧ ready.fetchQ = [] ∧ getRange ready 4095 = none ∧
      w.since + 1000 * fetchLimitMs ready.cfg = 100000 ∧ nowUs { ready with cycle := 100000 * 2000 } = 100000 ∧
      nowUs { ready with cycle := 100000 * 2000 - 1 } < 100000 ∧ ({ w with outBegun := false } : Window).outBegun = false ∧
      ({ w with outDone := false } : Window).outDone = false := by decide +kernel

/-- BRAMBLE_DONE of the last window: the range is DONE and its old key retires (R208, R209). -/
theorem test_bramble_done :
    let w : Window := { e := 20, isOpen := true, fseq := 3, outBegun := true, outDone := true }
    let ch := { ranged (aRange .window 0 (some w) false) with keys := { desc := [(1, mkDesc 2 5 0 3 1 31 0 0 0 0 0)] } }
    nextIs (exec (.brambleDone (BitVec.ofNat 64 (4095 + 3 * 2 ^ 16))) (on ch)) (fun t => !t.chip.ctl.err &&
      decide (dState (slotDesc t.chip 1) ≠ 2)) = true := by decide +kernel

/-- Two generations live with and without a request of the older one, and a write of the VITAL regions that waits; a fenced cluster that ports map to. -/
theorem witness_GenerationsTurn :
    let two : Chip := { ready with live2 := true, oldGen := 65535, admitGen := 0 }
    let held := setPort two 63 { reqs := [{ gen := 65535 }] }
    let fenced := { setUnit ready (srcCluster 5) { live := .down, mirror := .down } with quince := { rewrite := [5] } }
    two.quince.vitalsDue = false ∧ ({ two with quince := { vitalsDue := true } } : Chip).quince.vitalsDue = true ∧
      two.dstate ≠ 0 ∧ genUsed two 65535 = false ∧ genUsed held 65535 = true ∧ fenced.quince.rewrite ≠ [] ∧ fenced.live2 = false ∧
      halted fenced = false ∧ fenced.fw.handover = false ∧ clusterDown fenced (homeOf fenced.cfg 5) = true ∧
      clusterDown fenced (homeOf fenced.cfg 63) = false ∧ (∀ p, p < 64 → clusterDown ready (homeOf ready.cfg p) = false) := by
  decide +kernel

/-- The ports of a fenced cluster move to an unfenced one (R87). -/
theorem test_rewrite :
    let fenced := { setUnit ready (srcCluster 5) { live := .down, mirror := .down } with quince := { rewrite := [5] } }
    nextIs (exec .dispatchRewrite (on fenced)) (fun t => decide (homeOf t.chip.cfg 5 ≠ 5) && decide (homeOf t.chip.cfg 6 = 6) &&
      decide (t.chip.admitGen = 1)) = true := by decide +kernel

/-! ### The control port, tenants, faults, the boundary, power -/

/-- RNG_CTL with 0, 1, 1,000 and 1,001; a read of an ordinary register and of one in the last hole; a stalled port. -/
theorem witness_AccessRules :
    let a (write : Bool) (n : Nat) : Access := { off := 0, size := 8, write := write, data := BitVec.ofNat 64 n }
    ({ ready with ctl := { hostReset := true } } : Chip).ctl.hostReset = true ∧ ready.ctl.hostReset = false ∧
      ({ ready with ctl := { stall := some (.rng 0) } } : Chip).ctl.stall ≠ none ∧ ready.ctl.stall = none ∧
      fld (a true 0).data 0 10 = 0 ∧ 1 ≤ fld (a true 1).data 0 10 ∧ fld (a true 1000).data 0 10 ≤ 1000 ∧
      1000 < fld (a true 1001).data 0 10 ∧ inHole 0x7FF8 = false ∧ inHole 0x8000 = true ∧ inHole 0xFFF8 = true ∧
      inHole 0x10000 = false ∧ inHole 0x40FFF8 = false ∧ inHole 0x410000 = true ∧ inHole 0x6FFFF8 = true ∧
      inHole 0x700000 = false ∧ ({ a false 0 with size := 4 } : Access).size ≠ 8 ∧ (0x0A4 : Nat) % 8 ≠ 0 := by decide +kernel

/-- A slot of each state; a word at the end of the command area. -/
theorem witness_MailboxSlots :
    let m : Mailbox := { slots := [(1, { st := .submitted }), (7, { st := .done })] }
    let ch := setMb ready 1027 m
    let a : Access := { off := 0x3F8, size := 8, write := true, data := 5 }
    (Tbl.get {} (getMb ch 1027).slots 0).st = .free ∧ (Tbl.get {} (getMb ch 1027).slots 1).st ≠ .free ∧
      (Tbl.get {} (getMb ch 1027).slots 7).st = .done ∧ a.off.val < 0x400 ∧ a.off.val / 0x80 = 7 ∧ a.off.val % 8 = 0 ∧
      (0x81#64).getLsbD 7 = true ∧ (0x81#64).getLsbD 1 = false := by decide +kernel

/-- The doorbell submits slots 0 and 2 in ascending order (R242). -/
theorem test_doorbell : nextIs (exec (.mbDoorbell 5 5) (on ready)) (fun t => decide ((getMb t.chip 5).order = [0, 2])) = true := by
  decide +kernel

/-- A due result of a running job of mailbox 5, with 15 and with 16 results unread; a queue with an entry. -/
theorem witness_AttentionAndJobs :
    let h : BitVec 32 := BitVec.ofNat 32 (field 21 11 5 ||| 3)
    let old (n : Nat) : List Job := (List.range n).map fun i => { handle := BitVec.ofNat 32 (100 + i), opcode := 1, result := some (0, 0, 0) }
    let ch (n : Nat) : Chip := setMb ready 5 { jobs := { handle := h, opcode := 0x0202, due := some (0, 0, 7) } :: old n }
    dueResult (ch 15) h = some (0, 0, 7) ∧ dueResult ready h = none ∧ handleMb h = 5 ∧ (ch 15).fw.handover = false ∧
      ((getMb (ch 15) 5).jobs.filter fun j => !isRunning j).length < 16 ∧
      16 ≤ ((getMb (ch 16) 5).jobs.filter fun j => !isRunning j).length ∧
      (takeFirst (fun j : Job => decide (j.handle = h) && isRunning j) (getMb (ch 16) 5).jobs).map (·.2) = some (old 16) ∧
      (takeFirst (fun j : Job => !isRunning j) (old 16 ++ [{ handle := h, opcode := 0x0202, result := some (0, 0, 7) }])).map
        (·.1.handle) = some 100 ∧
      ({ ready with ctl := { att := [(5, 1)] } } : Chip).ctl.att = (5, 1) :: [] := by decide +kernel

/-- FETCH_LIMIT with 0, 1, 1,000 and 1,001; a commit of one dirty register, under one and two generations; a chip in HALT. -/
theorem witness_StagedConfiguration :
    let q : Quince := { commitBusy := true, staged := [(0x070, 5)], dirty := [0x070] }
    let ch : Chip := { ready with quince := q }
    stagedOff 0x070 = true ∧ stagedOff 0xBF0 = true ∧ stagedOff 0xC08 = false ∧ stagedOk 0x070 0 = false ∧
      stagedOk 0x070 1 = true ∧ stagedOk 0x070 1000 = true ∧ stagedOk 0x070 1001 = false ∧ serving ch = true ∧
      ch.quince.commitBusy = true ∧ nextMailbox ch = some 1024 ∧ ch.ctl.stall = none ∧ commitVerdict ch = 0 ∧
      commitVerdict { ch with live2 := true } ≠ 0 ∧ 0x070 ∈ ch.quince.dirty ∧ 0x078 ∉ ch.quince.dirty ∧
      halted inHalt = true ∧ ready.quince.commitBusy = false ∧ nextMailbox ready ≠ some 1024 := by decide +kernel

/-- Pools that sum to 256 with one of 8, one of 7, and a sum of 255; FLIT_GAP 0, 1 and 255; a staging session without and with
a write that runs. -/
theorem witness_RegistersWritten :
    let d (a b c e : Nat) : Word64 := BitVec.ofNat 64 (a + b * 2 ^ 9 + c * 2 ^ 18 + e * 2 ^ 27)
    let pool (d : Word64) (i : Nat) := fld d (9 * i) 9
    let good (d : Word64) : Prop := pool d 0 + pool d 1 + pool d 2 + pool d 3 = 256 ∧ 8 ≤ pool d 0 ∧ 8 ≤ pool d 1 ∧ 8 ≤ pool d 2 ∧ 8 ≤ pool d 3
    let g (writing : Bool) : Stage :=
      { mb := 1024, target := 1, which := 1, length := 256, spans := [], jobs := [{ handle := 0, writing := writing, lo := 0, hi := 1 }] }
    good (d 8 232 8 8) ∧ ¬ good (d 7 233 8 8) ∧ ¬ good (d 8 231 8 8) ∧ fld (0#64) 0 8 = 0 ∧ 0 < fld (1#64) 0 8 ∧
      0 < fld (0xFF#64) 0 8 ∧ ready.fw.stage = none ∧ (g true).jobs.any (·.writing) = true ∧
      (g false).jobs.any (·.writing) = false ∧ halted inHalt = true ∧ (1024 : Nat) < 1025 := by decide +kernel

/-- Sticky bits in the last word, one held by a HALT; the last tenant's ALARM. -/
theorem witness_WriteOneClears :
    let ch : Chip := { ready with
      faults := { sticky := [(4094, { bit := true, locked := true }), (4095, { bit := true })] }, tenants := [(1023, { alarm := true })] }
    4095 / 64 = (63 : Fin 64).val ∧ (0xC000000000000000#64).getLsbD (4095 % 64) = true ∧ (getSticky ch 4095).locked = false ∧
      (getSticky ch 4095).bit = true ∧ (getSticky ch 4094).locked = true ∧ 1023 / 64 = (15 : Fin 16).val ∧
      (getTenant ch 1023).alarm = true := by decide +kernel

/-- RNG_DATA served, unseeded, failed and under a HALT; a stall at RNG_STALL_MAX, 100 µs, and one cycle before; a fill that
runs and one that does not. -/
theorem witness_ReadsThatAct :
    let stalled (n : Nat) : Chip := { ready with cycle := n, ctl := { stall := some (.rng 0) } }
    ready.rng.seeded = false ∧ ready.rng.failed = false ∧ ready.rng.noData = false ∧
      ({ ready with rng := { seeded := true, key := run 1 32, v := run 2 16 } } : Chip).rng.seeded = true ∧ halted inHalt = true ∧
      (stalled 0).ctl.stall = some (.rng 0) ∧ 0 + (stalled 0).rngStallMax * usCycles (stalled 0) = 200000 ∧
      (stalled 199999).cycle < 200000 ∧ 200000 ≤ (stalled 200000).cycle ∧ (stalled 0).ctl.behind = [] ∧
      ready.recorder.loading = false ∧ ({ ready with recorder := { loading := true } } : Chip).recorder.loading = true := by
  decide +kernel

/-- A read of the window stalls while it fills, and ends with the fill (R338). -/
theorem test_window_read :
    let s := on { ready with recorder := { loading := true, filling := [0xABCD] } }
    nextIs (exec (.evtWindowRead 0) s) (fun t => decide (t.chip.ctl.stall = some (.window 0)) &&
      nextIs (exec .evtWindowFillDone t) (fun u => decide (u.chip.recorder.window.head? = some 0xABCD) &&
        decide (u.chip.ctl.stall = none) && decide (u.chip.ctl.data = 0xABCD))) = true := by decide +kernel

/-- A reset toward ENABLED, FAULTED and DISABLED; a purge with and without something left; 1 s and 1 µs less. -/
theorem witness_TenantsTurn :
    let h : BitVec 32 := BitVec.ofNat 32 (field 21 11 1024 ||| 3)
    let ch (toward : Nat) (purging : Bool) : Chip := { setMb ready 1024 { jobs := [{ handle := h, opcode := 0x0202 }] } with
      tenants := [(5, { st := .resetting, toward := toward, purging := purging, job := some h, purged := (1, 2, 3) })]
      cfg := { tenants := [(5, { slotSize := 4 })] } }
    let left := { ch 2 true with keys := { desc := [(1, mkDesc 2 5 0 1 0 31 0 0 0 0 0)], ldesc := [(0, mkLineDesc 2 5 0 1 false false 0)] } }
    (getTenant ready 5).st ≠ .resetting ∧ (getTenant (ch 2 true) 5).purging = true ∧ (getTenant (ch 1 false) 5).toward ≠ 2 ∧
      (getTenant (ch 3 false) 5).toward = 3 ∧ (getTenant (ch 2 false) 5).toward = 2 ∧ (getTenant (ch 2 true) 5).kekLeft = [] ∧
      quotaSlots (ch 2 true) 5 = [] ∧ looseEntries (ch 2 true) 5 = [] ∧ quotaSlots left 5 ≠ [] ∧ looseEntries left 5 ≠ [] ∧
      ({ mb := 1024, slot := 0, wait := .sweep 5 1, chal := none, ccount := 0, dropped := false } : Executing).wait = .sweep 5 1 ∧
      (getTenant (ch 2 true) 5).job = some h ∧ handleMb h = 1024 ∧
      (∃ j ∈ (getMb (ch 2 true) 1024).jobs, j.handle = h ∧ isRunning j = true) ∧
      nowUs { ready with cycle := 1000000 * 2000 - 1 } < ready.authSince + 1000000 ∧
      ready.authSince + 1000000 ≤ nowUs { ready with cycle := 1000000 * 2000 } := by decide +kernel

/-- A source disabled by fuse and one undefined; a NOTE kind, a counted kind's first and second message, a masked one, and
severities 0 to 4; the plans of an order; a lane with nothing and with a message that waits; what a damaged entry names. -/
theorem witness_FaultCollected :
    let m (src kind : Nat) (ctx : BitVec 32) : FaultMsg := { src := src, kind := kind, ctx := ctx, seq := 1 }
    let off (s : State) := { s with otp := { disabled := 1#64 <<< 8 } }
    let sev (n : Nat) : State := on { ready with tenants := [(5, { st := .enabled })], faults := { sticky := [(0x0CF, { sev := some n })] } }
    let settling := setUnit ready 0xA00C { settle := true }
    let resetting := setUnit ready 0xA00C { live := .fenced, mirror := .fenced, resetting := true }
    let waits : Chip := { setSrc ready 0x8303 { pendOther := some (0x09, 3, 7) } with faults :=
      { (setSrc ready 0x8303 { pendOther := some (0x09, 3, 7) }).faults with net := [(0x8303, false)] } }
    let q : Req := { rid := 7, ctx := 4095 }
    let row : Row := { no := 0, id := ⟨5, 0, 0, 0⟩, keyidx := 1, kgen := 0, epoch := 0, ck := 1, cm := 1, claimed := 1, passed := 0
                       accs := [[]], closer := none, lastAt := 0, parityLeft := 1 }
    let held : Chip := port0 { reqs := [q], cur := { rows := [row] } }
    let head : IMsg := { no := 1, sb := BitVec.ofNat 256 7 }
    let queued : Chip := modIng held 0 2 fun ic => { ic with waiting := [{ head with no := 0 }, head] }
    rindDisabled (off (on ready)) (srcMonitor 8) = true ∧ rindDisabled (on ready) (srcMonitor 8) = false ∧
      srcSticky 0x0001 = none ∧ kindDefined 0xFE = false ∧ srcSticky 0x8303 = some 0x0CF ∧ kindDefined 0x09 = true ∧
      kindNote 0x01 = true ∧ firstCounted ready (getSrc ready 0x8303) 0x03 = true ∧
      kindNote 0x09 = false ∧ firstCounted ready (getSrc ready 0x8303) 0x09 = false ∧
      (getSrc ready 0x8303).pendOther = none ∧ (getSrc ready 0x8303).pendNote = none ∧
      masked settling 0x8303 0 0 = true ∧ masked ready 0x8303 0 0 = false ∧
      effSev (sev 0) (m 0x8303 0x06 0) false 0x0CF = 0 ∧ kindNote 0x06 = false ∧ effSev (sev 1) (m 0x8303 0x09 0) false 0x0CF = 1 ∧
      effSev (sev 2) (m 0x8303 0x09 (ctxTenant 5 0)) false 0x0CF = 2 ∧ ctxTenantOf (ctxTenant 5 0) = 5 ∧
      (getTenant (sev 2).chip 5).st = .enabled ∧ (sev 4).chip.faults.react ≠ 2 ∧ ready.keys.secretGen < 4 ∧
      effSev (sev 3) (m 0x8303 0x09 0) false 0x0CF = 3 ∧ effSev (sev 4) (m 0x8303 0x09 0) false 0x0CF = 4 ∧
      srcUnit 0xA00C = some 0xA00C ∧ (planOrder ready 0xA00C 1 1).1 = 1 ∧ planOrder ready 0xA00C 2 1 = (2, 1) ∧
      planOrder resetting 0xA00C 2 1 = (3, 1) ∧ laneHead ready 1 = none ∧ laneHead waits 1 = some (0x8303, false) ∧
      (takePending waits 0x8303 false).map (·.1) = some (m 0x8303 0x09 3 |> fun x => { x with seq := 7 }) ∧
      fkSramUe = 0x02 ∧ (held.ports.map fun e => e.2.reqs.map (·.rid)) = [[7]] ∧
      (getPort held 0).reqs.find? (fun q => q.ctx = (4095 : Fin 4096).val && !q.dead) = some q ∧
      (getIng queued 0 (2 : Fin 4)).waiting[(1 : Fin 256).val]? = some head ∧
      (getIng queued 0 (2 : Fin 4)).waiting[(2 : Fin 256).val]? = none ∧ kindDefined fkProtocol = true ∧
      isCurrantSrc 0x7000 = true ∧ (srcSticky 0x7000).isSome = true ∧ rindDisabled (on ready) 0x7000 = false ∧
      ((getPort held 0).cur.rows.filter (·.id = row.id)).length = 1 ∧ findRow held 0 row.id = some row ∧
      (srcSticky 0x2017).isSome = true := by decide +kernel

/-- FK_SHADOW is a HALT at once (15_faults.md): zeroize is asserted, CK is gone, DSTATE reads HALTED. -/
theorem test_shadow_halts :
    let s := on { ready with keys := { ck := some (run 1 64) } }
    nextIs (exec (.faultMessage (.formed 0xC010 0x21 0 [])) s) (fun t => decide (t.chip.dstate = 2) && t.aon.zeroize &&
      decide (t.chip.keys.ck = none)) = true := by decide +kernel

/-- A reset that ends, with and without a fence that waits, at SGEN 65,535; a settle window at its end and one cycle before. -/
theorem witness_UnitsReturn :
    let u (f : Option Nat) : UnitSt := { live := .fenced, mirror := .fenced, resetting := true, fenceNext := f, sgen := 65535 }
    let ch (f : Option Nat) := setUnit ready 0xA00C (u f)
    let win (n : Nat) : Chip := { setUnit ready 0xA00C { settle := true, settleFrom := some 0 } with cycle := n }
    (getUnit (ch none) 0xA00C).resetting = true ∧ (getUnit (ch none) 0xA00C).fenceNext = none ∧
      (getUnit (ch (some 3)) 0xA00C).fenceNext = some 3 ∧ (getUnit ready 0xA00C).resetting = false ∧
      (getUnit ready 0xA00C).settle = false ∧ settleOpen (win 3999) 0xA00C = true ∧ settleOpen (win 4000) 0xA00C = false ∧
      (getUnit (win 4000) 0xA00C).settle = true := by decide +kernel

theorem witness_ReactionsEnd :
    let ch (n : Nat) : Chip := { inHalt with cycle := n, faults := { react := 1, closing := true, sweeping := true } }
    halted ready = false ∧ halted (ch 40000) = true ∧ (ch 40000).faults.closing = true ∧
      (ch 40000).faults.haltAt + 20 * usCycles (ch 40000) ≤ (ch 40000).cycle ∧
      (ch 39999).cycle < (ch 39999).faults.haltAt + 20 * usCycles (ch 39999) ∧ (ch 0).faults.sweeping = true ∧
      ready.faults.sweeping = false := by decide +kernel

/-- A slice, a cluster (which runs no test) and a fenced slice; a slice that is free, one whose cluster has a flit to issue; 9 ms
and one cycle less; a second failure of the random unit within 1 s and at it; 1 ms and the standby role's move; the two
copies of an entry that agree and that do not. -/
theorem witness_SelfChecks :
    let down := setUnit ready 0x8303 { live := .down }
    let f : StagedFlit := { port := 0, rid := 7, cls := 1, order := 0, bytes := [] }
    let busy := setCluster ready 12 { staging := [f] }
    let last (t : Nat) : Chip := { ready with cycle := 1000000 * 2000, rng := { katFailAt := some t } }
    katUnit 0x8303 = true ∧ katUnit 0xA00C = false ∧ unitOut down 0x8303 = true ∧ unitOut ready 0x8303 = false ∧
      sliceCluster (srcSlice 12 3) = 12 ∧ katFree ready (srcSlice 12 3) = true ∧ katFree busy (srcSlice 12 3) = false ∧
      katFree busy (srcSlice 12 16) = true ∧ isStreamSlice (srcSlice 12 3) = true ∧
      unitEff (getUnit ready (srcSlice 12 3)) = .active ∧ unitEff (getUnit ready (srcSlice 12 16)) ≠ .active ∧
      katForced busy (srcSlice 12 3) = true ∧
      katForced (setCluster ready 12 { staging := [{ f with cls := 0 }] }) (srcSlice 12 3) = false ∧
      (getUnit ready 0x8303).katAt + 9000 * usCycles ready = 18000000 ∧ isLineSlice 0x8303 = false ∧
      isLineSlice (srcLineSlice 31 0) = true ∧ katForced ready (srcLineSlice 31 0) = false ∧
      katForced (setUnit ready (srcLineSlice 31 8) { live := .down, mirror := .down }) (srcLineSlice 31 0) = true ∧
      nowUs (last 1) < 1 + 1000000 ∧ nowUs (last 0) = 0 + 1000000 ∧ ready.rng.katFailAt = none ∧ ready.rng.failed = false ∧
      nowUs { ready with cycle := 1000 * 2000 } = 1000 ∧ nowUs { ready with cycle := 1000 * 2000 - 1 } < 0 + 1000 ∧
      standbyLine ready 31 = some 8 ∧ nextStandby ready 31 8 = some 0 ∧
      standbyLine (setUnit ready (srcLineSlice 31 8) { live := .down, mirror := .down }) 31 = none ∧
      ready.rng.katOk = false ∧ (healthySloes ready).length < 4 ∧ shadowCopies (on ready) (.region 0 4095 true) = none ∧
      shadowCopies (on ready) (.slot 9) = some (0, (BitVec.allOnes 180).setWidth 1024) ∧
      shadowCopies (on ready) .lease = some (0, BitVec.allOnes 1024) ∧ shadowWidth (.slot 9) = 180 ∧
      fld ((0 : BitVec 1024) ^^^ 0) 0 180 = fld (~~~((BitVec.allOnes 180).setWidth 1024 ^^^ 0)) 0 180 ∧
      fld ((0 : BitVec 1024) ^^^ 1) 0 180 ≠ fld (~~~((BitVec.allOnes 180).setWidth 1024 ^^^ 0)) 0 180 := by decide +kernel

/-- A source fused off, one not armed 1 µs before 100 µs, one whose latch is set; a sample of another source; temperatures at
the limits and beyond, once and twice; an excursion of 11.0 % and beyond, of 4 and 5 ns; clock counts at their limits; a pin
low in one and in two ticks; a planned drop; trips with and without main power; the ticks that clear a latch. -/
theorem witness_MonitorsTrip :
    let at_ (us : Nat) : State := on { ready with cycle := us * 2000 }
    let dropped : State := { at_ 100 with chip := { (at_ 100).chip with pfail := true } }
    let e : Evidence := { type := 0, severity := 0, source := 0, tick := 0, reading := 0, detail := 0, usec := 0 }
    let dark : State := { chip := { powered := false }, otp := { locked := true }, aon := { tick := 5, latch := List.replicate 6 e } }
    let ticking : State := { at_ 100 with aon := { tick := 5 } }
    let passed (n : Nat) : Aon := { tripped := 1#64 <<< 23, samplers := [(23, { passed := n })] }
    monitorFused { at_ 100 with otp := { disabled := 1 } } 0 = true ∧ monitorArmed (at_ 99) 0 = false ∧ monitorArmed (at_ 100) 10 = true ∧
      monitorHeld { at_ 100 with aon := { tripped := 1#64 <<< 23 } } 23 = true ∧ monitorFused (at_ 100) 0 = false ∧
      monitorHeld (at_ 100) 0 = false ∧ sampleOf 8 (.volt true 111 5) = true ∧ sampleOf 7 (.volt true 111 5) = false ∧
      filterMet (at_ 100) 0 (.temp 2001 2001) = true ∧ filterMet (at_ 100) 0 (.temp 2001 2000) = false ∧
      filterMet (at_ 100) 0 (.temp (-561) (-561)) = true ∧ filterMet (at_ 100) 0 (.temp (-560) (-561)) = false ∧
      filterMet (at_ 100) 8 (.volt true 111 5) = true ∧ filterMet (at_ 100) 8 (.volt true 110 5) = false ∧
      filterMet (at_ 100) 8 (.volt true 111 4) = false ∧ filterMet (at_ 100) 10 (.clock 999 2301) = true ∧
      filterMet (at_ 100) 10 (.clock 1000 999) = false ∧ filterMet (at_ 100) 9 (.clock 22529 18431) = true ∧
      filterMet (at_ 100) 9 (.clock 22528 22529) = false ∧ filterMet (at_ 100) 9 (.clock 18432 18431) = false ∧
      filterMet ticking 23 (.input 3) = true ∧ filterMet ticking 23 (.input 4) = false ∧ filterMet dark 23 (.input 5) = true ∧
      filterMet ticking 11 (.mesh 0) = false ∧ filterMet ticking 11 (.mesh 5) = true ∧
      plannedDrop dropped 8 1 = true ∧ plannedDrop dropped 8 2 = false ∧ monitorReading dropped 8 (.volt false 111 5) = 1 ∧
      plannedDrop (at_ 100) 8 1 = false ∧ aonMonitor 10 = false ∧ aonMonitor 11 = true ∧ monitorArmed dark 23 = true ∧
      (getSrc (at_ 100).chip (srcMonitor 0)).pendOther = none ∧ (at_ 100).otp.locked = false ∧
      monitorHeld dark 23 = false ∧ dark.aon.latch.length ≤ 6 ∧ dropped.chip.pfail = true ∧ halted dropped.chip = false ∧
      warmReading 1760 = false ∧ warmReading 1761 = true ∧ warmReading (-320) = false ∧ warmReading (-321) = true ∧
      Tbl.get none ready.tempWarned 7 = none ∧ (passed 0).tripped.getLsbD 23 = true ∧
      (Tbl.get {} (passed latchTicks).samplers 23).passed = latchTicks ∧
      (Tbl.get {} (passed (latchTicks - 1)).samplers 23).passed < latchTicks  := by decide +kernel

/-- A trip without main power sets its latch and the kill-pending latch, and changes no fuse (R135, R388). -/
theorem test_dark_trip :
    let dark : State := { chip := { powered := false }, otp := { locked := true }, aon := { tick := 5 } }
    nextIs (exec (.monitorTrip 23 (.input 7)) dark) (fun t => t.aon.killPending && t.aon.tripped.getLsbD 23 && decide (t.otp = dark.otp) &&
      decide (t.aon.latch.length = 2)) = true := by decide +kernel

/-- A test that failed on a source with 2 failures, and one on a source that has 3; four and five sources out; 4,095 and 4,096
passing samples; a reseed at 65,536 calls, at 1 s, and before both; four sources healthy with three conditioned blocks, with two,
and three sources. -/
theorem witness_RandomUnitRuns :
    let out (n : Nat) : Chip := { ready with rng := { sloes := (List.range n).map fun i => (i, { fails := 2, due := some true }) } }
    let block := run 1 48
    let has (k n : Nat) : Chip := { ready with rng :=
      { katOk := true, blocks := List.replicate n block, sloes := (List.range k).map fun i => (i, { healthy := true }) } }
    (getSloe { ready with rng := { sloes := [(7, { fails := 3, due := some true })] } } 7).fails = 3 ∧
      (getSloe (out 4) 3).fails < 3 ∧ (getSloe (out 4) 3).due = some true ∧ (getSloe (out 4) 7).due ≠ some true ∧
      sloesOut (out 4) = 4 ∧ sloesOut (out 5) = 5 ∧ (getSloe (out 4) 3).healthy = false ∧
      ({ passed := 4095, fails := 1 } : Sloe).passed < 4096 ∧ 4096 ≤ ({ passed := 4096, fails := 1 } : Sloe).passed ∧
      ({ passed := 4096, fails := 1 } : Sloe).due = none ∧ entropyReady (has 4 3) = true ∧ entropyReady (has 4 2) = false ∧
      entropyReady (has 3 3) = false ∧ (has 4 3).rng.katOk = true ∧ (has 4 3).rng.failed = false ∧ (has 4 3).rng.seeded = false ∧
      entropyReady ready = false ∧
      ({ seeded := true, calls := 65536 } : Rng).calls = 65536 ∧ ({ seeded := true, calls := 65535 } : Rng).calls < 65536 ∧
      nowUs { ready with cycle := 1000000 * 2000 - 1 } < ready.rng.reseedAt + 1000000 ∧ ready.rng.seeded = false ∧
      ready.rng.meshSeeded = false := by decide +kernel

/-- No activation; one whose slot fails its check (blank flash); a block that the new image reads and one it does not; 50 ms
and one cycle less. A slot that passes its check needs signatures that verify, which are free values (log entry 5). -/
theorem witness_HandoverRuns :
    let fw : Fw := { activate := some (3, 1), imgA := { hbOut := 2 }, imgB := { hbOut := 2, hbMin := 2 } }
    let s := on { ready with fw := fw }
    let begun := (beginHandover s.chip).fw
    ready.fw.activate = none ∧ fw.activate = some (3, 1) ∧ fw.handover = false ∧ s.chip.quince.exec = none ∧
      (match checkSlot s 1 none with | .error _ => true | .ok _ => false) = true ∧
      begun.handover = true ∧ (getBank begun 1).block = some (handoverBlock s.chip) ∧ (getBank begun 0).closed = true ∧
      blockReadable begun (imgOf begun 1 1) = true ∧ blockReadable fw (imgOf fw 1 1) = false ∧
      blockReadable begun { hbOut := 1 } = false ∧ fw.handoverAt + 50000 * usCycles s.chip = 100000000 := by decide +kernel

theorem witness_PowerTurns :
    (on { ready with pfail := true }).chip.pfail = true ∧ ready.pfail = false ∧ (on { powered := false }).chip.powered = false ∧
      ready.xspi0.bus = none ∧ ready.xspi1.bus = none ∧ ({ present := false } : Aon).present = false ∧ ({} : Aon).present = true := by
  decide +kernel

/-- CORE_MUL 15, 16, 21 and 22; a boot with and without a TRIPPED latch; READY due and not due. -/
theorem witness_Boots :
    let b (n : Nat) : BootInputs :=
      { coreMul := Fin.ofNat 32 n, pfail := false, answers0 := true, answers1 := true, badStream := [], badLine := [], badCurrant := [] }
    ¬ (16 ≤ (b 15).coreMul.val ∧ (b 15).coreMul.val ≤ 21) ∧ (16 ≤ (b 16).coreMul.val ∧ (b 16).coreMul.val ≤ 21) ∧
      (16 ≤ (b 21).coreMul.val ∧ (b 21).coreMul.val ≤ 21) ∧ ¬ (16 ≤ (b 22).coreMul.val ∧ (b 22).coreMul.val ≤ 21) ∧
      (trippedSource { chip := {}, aon := { tripped := 1#64 <<< 23 } }).isSome = true ∧ trippedSource State.reset = none ∧
      readyDue ready = false ∧ readyDue { booted := true } = true ∧ ready.fw.rom = false := by decide +kernel

theorem witness_HostResets :
    let low (d : Nat) : Chip := { ready with dstate := d, ctl := { hostReset := true } }
    ready.ctl.hostReset = false ∧ (low 0).ctl.hostReset = true ∧ (low 0).dstate = 0 ∧ (low 1).dstate ≠ 0 ∧
      (low 1).fw.handover = false ∧ ({ ready with ctl := { stall := some (.rng 0), behind := [(8, ⟨8, 8, false, 0⟩)] } } : Chip).ctl.stall ≠ none := by
  decide +kernel

/-- Whatever the map holds, the severity in force of a monitor lies between HALT and ZEROIZE (R348). -/
theorem test_severity_range : sevOf (setSticky ready 0x6D0 { sev := some 9 }) 0x6D0 = 4 ∧
    sevOf (setSticky ready 0x6D0 { sev := some 1 }) 0x6D0 = 3 ∧ sevOf ready 0x6DB = 4 := by decide +kernel
/-! ### Commands that are served

Each witness meets the hypotheses of one clause of a command's statement: the command is served, its parameters are well
formed, and the state in which its own part runs passes what the clause asks. Clauses whose hypothesis is the result of a
free value (a signature of Birmin's, a device identity; log entries 3, 5) can be met but not evaluated, and have no witness. -/

/-- READY with tenant 5 enabled, its quotas, keys in slots 1 (ACTIVE, pinned), 2 (ACTIVE) and 3 (EMPTY), line key entries
0 (bound to region 0) and 2, region 0 SWEPT, and both flash devices in service. -/
def inUse : Chip :=
  { ready with
    tenants := [(5, { st := .enabled })]
    cfg := { tenants := [(5, { slotSize := 16, lkeySize := 8, rangeQuota := 4, clearDek := true })]
             regions := [(0, region 1 0 15 0 0 false)], profiles := [(3, BitVec.ofNat 32 (2 ^ 31 + 256 * 4 + 2))] }
    keys := { ck := some (run 9 64), vk := some (run 1 32), tk := some (run 2 32)
              desc := [(1, setFld (mkDesc 2 5 0 3 1 1 0 0 0 0 0) 94 1 1), (2, mkDesc 2 5 0 3 1 1 0 0 0 0 0)]
              ldesc := [(0, mkLineDesc 2 5 0 1 false true 0), (2, mkLineDesc 2 5 0 1 false false 0)] }
    recorder := { wpos := 0, filling := [0] }
    xspi0 := { inService := true }, xspi1 := { inService := true } }

/-- The clause asks nothing more. -/
def nothing (_ : State) (_ : Chip) (_ : CommandWord) : Bool := true

theorem witness_CommandsAnswered :
    let c := word 0x0F77 []
    let s := send ready 1024 c
    serving s.chip = true ∧ nextMailbox s.chip = some 1024 ∧ (getMb s.chip 1024).order.head? = some 3 ∧
      (slotOf s 1024 3).cmd = c ∧ opInfo (cOpcode c) = none ∧ halted s.chip = false ∧ officerOf 1024 = none ∧
      cb c 4 12 = 0 ∧ cb c 0x70 16 = 0 ∧ nextMailbox ready = none ∧ stBadOpcode < 256 := by decide +kernel

/-- XN_DEVICE_QUERY of a tenant, of the owner and of the factory page. -/
theorem witness_DeviceCommands_query : Meets inUse 5 0x0101 [] [] nothing ∧ Meets inHalt 1024 0x0101 [] [] nothing ∧
    Meets ready 1027 0x0101 [] [] nothing :=
  ⟨meets_holds (by decide +kernel), meets_holds (by decide +kernel), meets_holds (by decide +kernel)⟩

/-- XN_JOB_QUERY of a handle that names no job, a running one, one that ended. -/
theorem witness_DeviceCommands_job :
    let ch (r : Option (Nat × Nat × Nat)) : Chip := { ready with mbs := [(1024, { jobs := [{ handle := 4, opcode := 0x0202, result := r }] })] }
    let job (c : Chip) (cmd : CommandWord) := (getMb c 1024).jobs.find? fun j => j.handle = BitVec.ofNat 32 (cb cmd 0x10 4)
    Meets (ch none) 1024 0x0102 [(0x10, 4, 5)] [(0x10, 32)] (fun _ c cmd => job c cmd = none) ∧
      Meets (ch none) 1024 0x0102 [(0x10, 4, 4)] [(0x10, 32)] (fun _ c cmd => (job c cmd).map (·.result) = some none) ∧
      Meets (ch (some (0, 0, 1))) 1024 0x0102 [(0x10, 4, 4)] [(0x10, 32)]
        (fun _ c cmd => (job c cmd).map (·.result) = some (some (0, 0, 1))) :=
  ⟨meets_holds (by decide +kernel), meets_holds (by decide +kernel), meets_holds (by decide +kernel)⟩

/-- Enable and disable of a stream port, enable of a line port, reopening of a fenced stream port, and of one whose unit
is out; an enable under HOST_RST_N. -/
theorem witness_DeviceCommands_port :
    let f (_ : State) (c : Chip) (cmd : CommandWord) := decide (portCtlFail c (cb cmd 0x10 1) (cb cmd 0x11 1) (cb cmd 0x12 1) = none)
    Meets ready 1024 0x0103 [(0x11, 1, 63), (0x12, 1, 1)] [(0x10, 24)] (fun s c m =>
        f s c m && !unitOut (liftPortFence c (srcPort 63)) (srcPort 63) && !c.ctl.hostReset) ∧
      Meets (setUnit (setPort ready 0 { st := .fenced }) (srcPort 0) { live := .down, mirror := .down }) 1024 0x0103 [(0x12, 1, 3)] [(0x10, 24)]
        (fun s c m => f s c m && unitOut (liftPortFence c (srcPort 0)) (srcPort 0) && !c.ctl.hostReset) ∧
      Meets (setPort ready 0 { st := .enabled }) 1024 0x0103 [(0x12, 1, 2)] [(0x10, 24)] f ∧
      Meets ready 1024 0x0103 [(0x10, 1, 1), (0x11, 1, 31), (0x12, 1, 1)] [(0x10, 24)]
        (fun s c m => f s c m && !unitOut (liftPortFence c (srcLine 31)) (srcLine 31) &&
          !unitOut (liftPortFence c (srcLine 31)) (srcGroup (groupOf 31)) && !c.ctl.hostReset) ∧
      Meets { ready with ctl := { hostReset := true } } 1024 0x0103 [(0x12, 1, 1)] [(0x10, 24)] (fun s c m => f s c m && c.ctl.hostReset) ∧
      Meets (setPort ready 0 { st := .fenced }) 1024 0x0103 [(0x12, 1, 3)] [(0x10, 24)] f ∧
      Meets ready 1024 0x0104 [(0x11, 1, 63)] [(0x10, 16)] nothing ∧
      Meets ready 1024 0x0104 [(0x10, 1, 1), (0x11, 1, 31)] [(0x10, 16)] nothing :=
  ⟨meets_holds (by decide +kernel), meets_holds (by decide +kernel), meets_holds (by decide +kernel), meets_holds (by decide +kernel),
    meets_holds (by decide +kernel), meets_holds (by decide +kernel), meets_holds (by decide +kernel), meets_holds (by decide +kernel)⟩

/-- Both SCOPEs of XN_DEVICE_ZEROIZE, outside HALT and in it, and the factory
lock. -/
theorem witness_DeviceCommands_zeroize :
    let ps (scope : Nat) := [(0x10, 1, scope), (0x18, 8, confirmZeroize)]
    Meets ready 1024 0x0105 (ps 1) [(0x10, 8), (0x18, 64)] (fun s _ cmd => decide (cb cmd 0x18 8 = confirmZeroize) &&
      !halted s.chip && decide (s.chip.ctl.stall = none) && decide ((getSrc s.chip (srcSub 0x0B)).pendOther = none)) ∧
    Meets inHalt 1024 0x0105 (ps 1) [(0x10, 8), (0x18, 64)] (fun s _ _ => halted s.chip) ∧
    Meets ready 1024 0x0105 (ps 2) [(0x10, 8), (0x18, 64)] (fun s _ _ => decide (s.chip.ctl.stall = none) &&
      decide ((getSrc s.chip (srcSub 0x0C)).pendOther = none)) ∧
    Meets ready 1027 0x0106 [(0x10, 8, confirmLock)] [(0x10, 64)] (fun s _ _ => !s.otp.locked) :=
  ⟨meets_holds (by decide +kernel), meets_holds (by decide +kernel), meets_holds (by decide +kernel), meets_holds (by decide +kernel)⟩

/-- The first and the last tenant enabled; a disable, a reset from the owner page and from the tenant's own. -/
theorem witness_TenantCommands_lifecycle :
    let off (t : Nat) := Meets ready 1024 0x0201 [(0x10, 2, t)] [(0x10, 10)]
      (fun _ c _ => decide ((getTenant c t).st = .disabled) && !c.live2)
    let flash : Chip := { ready with tenants := [(6, { st := .enabled })], xspi0 := { inService := true }, xspi1 := { inService := true } }
    off 0 ∧ off 1023 ∧
    Meets flash 1024 0x0202 [(0x10, 2, 6)] [(0x10, 10)] (fun _ c _ => decide (disableFail c 1024 6 = none)) ∧
    Meets flash 1024 0x0203 [(0x10, 2, 6)] [(0x10, 10)] (fun _ c _ => ownTenant 1024 6 && decide (resetFail c 6 = none)) ∧
    Meets inUse 5 0x0203 [(0x10, 2, 5)] [(0x10, 10)] (fun _ c _ => ownTenant 5 5 && decide (resetFail c 5 = none)) :=
  ⟨meets_holds (by decide +kernel), meets_holds (by decide +kernel), meets_holds (by decide +kernel),
    meets_holds (by decide +kernel), meets_holds (by decide +kernel)⟩

/-- The three views of XN_TENANT_QUERY. -/
theorem witness_TenantCommands_query :
    let q (v : Nat) := Meets inUse 5 0x0204 [(0x10, 2, 5), (0x12, 1, v)] [(0x10, 10), (0x12, 8)] (fun _ _ cmd => ownTenant 5 5 && decide (cb cmd 0x12 1 = v))
    q 0 ∧ q 1 ∧ q 2 :=
  ⟨meets_holds (by decide +kernel), meets_holds (by decide +kernel), meets_holds (by decide +kernel)⟩

/-- XN_TENANT_SET of every part, and of AUTH_LIMIT alone with two generations live. -/
theorem witness_TenantCommands_set :
    let ok (cmd : CommandWord) := setCheck1 cmd && setCheck2 cmd
    Meets inUse 1024 0x0205 [(0x10, 2, 5), (0x12, 1, 63), (0x38, 2, 4096), (0x3A, 1, 3), (0x3B, 1, 0xFE), (0x52, 1, 127),
        (0x53, 1, 32), (0x54, 2, 4096), (0x56, 2, 65535), (0x58, 1, 1)] setFields (fun _ c cmd => ok cmd && !c.live2) ∧
    Meets { inUse with live2 := true } 1024 0x0205 [(0x10, 2, 5), (0x12, 1, 32), (0x56, 2, 9)] setFields
      (fun _ c cmd => ok cmd && c.live2 && decide (cb cmd 0x12 1 % 32 = 0)) :=
  ⟨meets_holds (by decide +kernel), meets_holds (by decide +kernel)⟩

/-- An unpinned ACTIVE slot retired, pinned, unpinned, a pinned one pinned again, one pinned with the quota used up, and one that is
found lost; a query in the quota and past its end. -/
theorem witness_KeySlotCommands_slots :
    let two := [(0x10, 20), (0x14, 8)]
    let mine (k : Nat) (c : Chip) : Bool := inSlotQuota (tenantCfg c.cfg 5) k && decide (dState (slotDesc c k) = ssActive)
    Meets inUse 5 0x0302 [(0x10, 4, 2)] two (fun _ c _ => mine 2 c && !rangeNames c 2) ∧
    Meets inUse 5 0x0303 [(0x10, 4, 15)] [(0x10, 20)] (fun _ c _ => inSlotQuota (tenantCfg c.cfg 5) 15) ∧
    Meets inUse 5 0x0303 [(0x10, 4, 16)] [(0x10, 20)] (fun _ c _ => !inSlotQuota (tenantCfg c.cfg 5) 16) ∧
    Meets inUse 5 0x0304 [(0x10, 4, 1)] two (fun _ c _ => mine 1 c && dPinned (slotDesc c 1)) ∧
    Meets { inUse with cfg := { tenants := [(5, { slotSize := 16, pinQuota := 0 })] } } 5 0x0304 [(0x10, 4, 2)] two
      (fun _ c _ => mine 2 c && !dPinned (slotDesc c 2) && decide ((tenantCfg c.cfg 5).pinQuota ≤ pinsHeld c 5)) ∧
    Meets inUse 5 0x0304 [(0x10, 4, 2)] two (fun _ c _ => mine 2 c && !dPinned (slotDesc c 2) && (freePin c).isSome &&
      decide (pinsHeld c 5 < (tenantCfg c.cfg 5).pinQuota) && decide (scrubSlot c 2 [] = c) &&
      decide (dState (slotDesc (scrubSlot c 2 [0, 1, 2, 3, 4, 5, 6, 7]) 2) = ssActive) &&
      decide (dState (slotDesc (scrubSlot c 2 [0, 1, 2, 3, 4, 5, 6, 7, 79]) 2) ≠ ssActive)) ∧
    Meets inUse 5 0x0305 [(0x10, 4, 1)] two (fun _ c _ => mine 1 c) :=
  ⟨meets_holds (by decide +kernel), meets_holds (by decide +kernel), meets_holds (by decide +kernel), meets_holds (by decide +kernel),
    meets_holds (by decide +kernel), meets_holds (by decide +kernel), meets_holds (by decide +kernel)⟩

/-- A 512-bit key of MODE 2 in the KEY_DATA words. -/
theorem witness_KeySlotCommands_install :
    let keyed : Chip := { inUse with mbs := [(5, { keyData := (List.range 8).map fun i => (i, some (BitVec.ofNat 64 (i + 1))) })] }
    Meets keyed 5 0x0301 [(0x10, 4, 3), (0x14, 1, 1), (0x18, 1, 2), (0x19, 1, 1), (0x1A, 1, 0x18)]
      [(0x10, 20), (0x14, 8), (0x15, 8), (0x16, 16), (0x18, 24), (0x1C, 24), (0x20, 128)]
      (fun s c _ => decide (dState (slotDesc c 3) = ssEmpty) && inSlotQuota (tenantCfg c.cfg 5) 3 && decide (c.keys.secretGen < 4) &&
        match attrFromClear c 5 (callOf s 5 3) with
        | .ok a => decide (attrFail (tenantCfg c.cfg 5) a = none)
        | .error _ => false) :=
  meets_holds (by decide +kernel)

/-- XN_KEK_QUERY of a KEK and of both group keys, an erase, quotas set and read, XN_LEASE_QUERY, a slot change and the slot in
use. -/
theorem witness_CustodyCommands :
    let kek : Chip := { inUse with keys := { inUse.keys with keks := [(82, { source := 2, record := run 0 40 })] } }
    let q (ty : Nat) := Meets inUse 1024 0x0307 [(0x10, 1, ty)] [(0x10, 8), (0x11, 8), (0x12, 16)] nothing
    let slot (v : Nat) := Meets inUse 1024 0x0402 [(0x10, 2, v)] [(0x10, 16)] (fun _ c _ => decide (localSlotFail c 1024 v = none))
    q 0 ∧ q 1 ∧ q 2 ∧
    Meets kek 5 0x0308 [(0x10, 1, 2), (0x12, 2, 5)] [(0x10, 8), (0x12, 10)] (fun _ c _ => ownTenant 5 5 && kekActive c 82 &&
      !kekReserved c 82 && decide (vaultRefusal c = none)) ∧
    Meets inUse 5 0x0309 [(0x10, 2, 5)] quotaFields (fun _ _ cmd => quotaQuery cmd) ∧
    Meets inUse 1024 0x0309 [(0x10, 2, 6), (0x12, 1, 7), (0x18, 4, 1048575), (0x1C, 4, 1), (0x20, 2, 0xFF7), (0x22, 2, 1),
        (0x24, 4, 65536)] quotaFields (fun _ c cmd => !quotaQuery cmd && decide (quotaFail c cmd = none) && !c.live2) ∧
    Meets inHalt 1024 0x0401 [] [] nothing ∧ slot 0 ∧ slot 4095 :=
  ⟨meets_holds (by decide +kernel), meets_holds (by decide +kernel), meets_holds (by decide +kernel),
    meets_holds (by decide +kernel), meets_holds (by decide +kernel), meets_holds (by decide +kernel),
    meets_holds (by decide +kernel), meets_holds (by decide +kernel), meets_holds (by decide +kernel)⟩
/-- 256-bit keys as memory records under CK `run 9 64`: the GTK and KEK `run 5 32` (AES-KW, R106). -/
def heldKey : List Byte := bvBytes 40 (0x9cba16ff65ca87b1f8f2d1b6c4acde43df270de8522134f0b5b560131c35552ebdab51a60d1c23bc : BitVec 320)

/-- The words of a BLOB mailbox. -/
def blobOf (n : Nat) (v : Nat) : Tbl (Option Word64) := (List.range n).map fun i => (i, some (BitVec.ofNat 64 (v >>> (64 * i))))

/-- A DKK1 blob under the current GTK for KEK slot 1 of tenant 5 (Table 5.11). -/
theorem witness_CustodyCommands_load :
    let ch : Chip := { inUse with keys := { inUse.keys with gtkCur := some ⟨4, heldKey⟩ }
                                  mbs := [(5, { blob := blobOf 7 0x6a250b689381258217a0bf1a05d178d57b4b3f2875c07dfd1be83927168fd16a85affd0b24b6533de1ca7de28c27b5c217cd8d6591237b48 })] }
    Meets ch 5 0x0306 [(0x10, 1, 1), (0x12, 2, 56)] [(0x10, 8), (0x12, 16)]
      (fun s c _ => decide (kekLoadFail c 5 1 (callOf s 5 3) = none) && decide (vaultRefusal c = none) &&
        match gtkUnwrap c (blobBytes (callOf s 5 3).blob 56) with
        | some (pos, epoch, pt) => decide (pos = 0) && decide (epoch = 4) && decide (pt.take 16 = attrBlock 5 1 0 magicDkk1)
        | none => false) :=
  meets_holds (by decide +kernel)

/-- A DKB1 blob of MODE 1 under KEK slot 1 of tenant 5 for line key entry 5 (Table 5.10). -/
theorem witness_RegionCommands_install :
    let ch : Chip := { inUse with keys := { inUse.keys with keks := [(81, { source := 2, record := heldKey })] }
                                  mbs := [(1024, { blob := blobOf 9 0x1b56b70e00fe406e33cb1008255dd69b6fcf3822fb7af20da37b8c5ddd7a580a0f9c442598740db3c1c0cfe9c231faf7cf8fec8d73f2ebea5e7b72d9a37e96bc4ca9934787f7243b })] }
    Meets ch 1024 0x0505 [(0x10, 2, 5), (0x12, 2, 5), (0x14, 1, 1), (0x16, 2, 72)] [(0x10, 10), (0x12, 12), (0x14, 4), (0x16, 16)]
      (fun s c _ => decide (lkeyFail c 5 5 (callOf s 1024 3) = none) &&
        match unwrapKek c 81 (blobBytes (callOf s 1024 3).blob 72) with
        | some pt => decide (lattrFail (tenantCfg c.cfg 5) (blobAttr pt 5 1) = none)
        | none => false) :=
  meets_holds (by decide +kernel)

/-- Officers A and B enrolled, the random unit seeded, and keys of both in the mailbox's KSHARE words. -/
def officers (ch : Chip) : Chip :=
  { ch with
    rng := { seeded := true }
    keys := { ch.keys with vk := some (run 1 32), tk := some (run 2 32), ck := some (run 9 64)
                           offA := { enrolled := true, key := run 1 32, nonce := 77 } }
    mbs := [(1025, { keyData := (List.range 8).map fun i => (i, some (BitVec.ofNat 64 (i + 1))) })]
    xspi0 := { inService := true }, xspi1 := { inService := true } }

/-- A session of a purpose in a state. -/
def session (purpose state : Nat) : Session :=
  { num := 7, purpose := purpose, tenant := 5, kekslot := 1, state := state, expiry := 50
    share := if purpose = 1 then run 3 64 else [] }

/-- The officers' chip with that session. -/
def inSession (n : Session) : Chip :=
  let ch := officers { ready with tenants := [(5, { st := .enabled })] }
  { ch with keys := { ch.keys with session := n } }

/-- The number 65,535 follows 65,534; a session for a KEK, and one after a session that ended. Each command carries AUTH, the
CMAC of its first 112 bytes and the challenge under the officer's key (R253). -/
theorem witness_OfficerCommands_open :
    Meets (inSession { num := 65535 }) 1025 0x0C01 [(0x10, 1, 1), (0x12, 2, 5), (0x14, 1, 2), (0x70, 16, 53928382567140076095156358808677779964)]
      [(0x10, 8), (0x12, 24), (0x18, 48)] (fun s _ cmd => decide (openFail (started s 1025 3) cmd = none)) :=
  meets_holds (by decide +kernel)

/-- The first share of a KEK; the second, whose XOR with the first is not zero, and whose XOR is zero; the second commit of a log
clear; the second commit of a fuse. -/
theorem witness_OfficerCommands_commit :
    let c (n : Session) := Meets (inSession n) 1025 0x0C02 [(0x10, 2, 7), (0x70, 16, 47809929712399237520853069625020427639)] [(0x10, 16)]
      (fun _ ch cmd => let e := ch.keys.session
        decide (commitFail ch 1025 0 cmd = none) && decide (e.state = n.state) && decide (vaultRefusal ch = none) &&
          jobFree ch 1025 && (decide (2 < n.purpose) ||
            ((xorBytes e.share (shareOf ch 1025)).all (· = 0) == decide (n.share = (List.range 8).flatMap fun i => toLE 8 (i + 1)))))
    c (session 1 1) ∧ c (session 1 3) ∧ c { session 1 3 with share := (List.range 8).flatMap fun i => toLE 8 (i + 1) } ∧
    c (session 3 3) ∧ c (session 4 3) :=
  ⟨meets_holds (by decide +kernel), meets_holds (by decide +kernel), meets_holds (by decide +kernel), meets_holds (by decide +kernel), meets_holds (by decide +kernel)⟩

theorem witness_OfficerCommands_cancel :
    Meets (inSession (session 3 1)) 1025 0x0C03 [(0x10, 2, 7), (0x70, 16, 199725456849563194564031890276627532566)] [(0x10, 16)]
      (fun _ ch _ => sessionOpen ch.keys.session && decide (ch.keys.session.num = 7)) :=
  meets_holds (by decide +kernel)

/-- The status of a session at its last microsecond, and of one whose window has passed. -/
theorem witness_DualStatusReports :
    let q (us : Nat) := Meets { inSession (session 3 1) with cycle := us * 2000 } 1025 0x0C04 [(0x70, 16, 161724440955920191346994719122774444260)] []
      (fun _ ch _ => decide (ch.keys.session.state = if us < 50 then 1 else 5))
    q 49 ∧ q 50 :=
  ⟨meets_holds (by decide +kernel), meets_holds (by decide +kernel)⟩

/-- The enrolment of an officer that has none, allowed until later; the owner's permission for it. -/
theorem witness_OfficerCommands_enrol :
    let ch : Chip := { officers ready with mbs := [(1025, { keyData := (List.range 4).map fun i => (i, some (BitVec.ofNat 64 (i + 1))) })] }
    let ch : Chip := { ch with keys := { ch.keys with offA := { nonce := 77, allowUntil := some 1 } } }
    Meets ch 1025 0x0C05 [(0x70, 16, 139928329555912128875824042435636417793)] [(0x10, 128)]
      (fun s e cmd =>
        !sessionOpen e.keys.session && enrolWords e 1025 0 cmd && decide (vaultRefusal e = none) &&
          decide (enrolFail e 0 (callOf s 1025 3) (keyDataBytes (getMb e 1025) 4) = none)) ∧
    Meets ready 1024 0x0C06 [(0x10, 1, 1)] [(0x10, 8)] (fun _ c _ => !(getOfficer c 1).enrolled) :=
  ⟨meets_holds (by decide +kernel), meets_holds (by decide +kernel)⟩

/-- XN_OFFICER_ZEROIZE of SCOPE 2. -/
theorem witness_DeviceCommands_officer :
    Meets (officers ready) 1025 0x0C07 [(0x10, 1, 2), (0x18, 8, confirmZeroize), (0x70, 16, 48085707913265304136090284091046038889)]
      [(0x10, 8), (0x18, 64)] (fun s _ _ => decide ((getSrc s.chip (srcSub 0x0C)).pendOther = none) &&
        decide (s.chip.ctl.stall = none)) :=
  meets_holds (by decide +kernel)

/-- A new region at the last entry up to the last block, and a change of AVAL and AMASK of one that is on; a clear of each, a
query of a tenant's own and of an entry that is off. -/
theorem witness_RegionCommands_regions :
    let f := [(0x10, 16), (0x12, 8), (0x13, 8), (0x14, 16), (0x16, 16), (0x18, 40), (0x20, 40), (0x28, 16), (0x2A, 16)]
    let ok (_ : State) (c : Chip) (cmd : CommandWord) : Bool := regionFieldsOk cmd && decide (regionSetFail c cmd = none)
    Meets inUse 1024 0x0501 [(0x10, 2, 4095), (0x12, 1, 1), (0x14, 2, 5), (0x16, 2, 2), (0x18, 5, 2 ^ 40 - 1), (0x20, 5, 2 ^ 40 - 1)] f ok ∧
    Meets inUse 1024 0x0501 [(0x12, 1, 1), (0x13, 1, 1), (0x14, 2, 5), (0x20, 5, 15), (0x28, 2, 1), (0x2A, 2, 4095)] f ok ∧
    Meets inUse 1024 0x0502 [] [(0x10, 16)] (fun _ c _ => decide (rgKind (regionOf c.cfg 0) = 1) && !rgRekey (regionOf c.cfg 0) && !c.live2) ∧
    Meets inUse 1024 0x0502 [(0x10, 2, 4095)] [(0x10, 16)] (fun _ c _ => decide (rgKind (regionOf c.cfg 4095) = 0)) ∧
    Meets inUse 5 0x0503 [] [(0x10, 12)] (fun _ c _ => decide (rgTenant (regionOf c.cfg 0) = 5)) ∧
    Meets inUse 5 0x0503 [(0x10, 2, 4095)] [(0x10, 12)] (fun _ c _ => decide (rgKind (regionOf c.cfg 4095) = 0)) :=
  ⟨meets_holds (by decide +kernel), meets_holds (by decide +kernel), meets_holds (by decide +kernel),
    meets_holds (by decide +kernel), meets_holds (by decide +kernel), meets_holds (by decide +kernel)⟩

/-- A sweep paused and resumed (with every mapped port enabled), and the line keys retired, in flight and not, and read. -/
theorem witness_RegionCommands_keys :
    let sw (st : Nat) : Chip := { inUse with sweeps := [(0, { state := st })], lines := (List.range 32).map fun i => (i, { st := .enabled }) }
    let three := [(0x10, 10), (0x12, 12), (0x14, 8)]
    let retire (_ : State) (c : Chip) (_ : CommandWord) : Bool := decide (lkeyRetireFail c 5 2 0 = none)
    Meets (sw 1) 1024 0x0504 [(0x12, 1, 1)] [(0x10, 16), (0x12, 8)] (fun _ c _ => decide ((getSweep c 0).state = 1)) ∧
    Meets (sw 2) 1024 0x0504 [(0x12, 1, 2)] [(0x10, 16), (0x12, 8)] (fun _ c _ => decide ((getSweep c 0).state = 2) && mapPortsOpen c) ∧
    Meets inUse 1024 0x0506 [(0x10, 2, 5), (0x12, 2, 2)] three (fun s c d => retire s c d && decide (lineInflight c 2 = 0)) ∧
    Meets { inUse with keys := { inUse.keys with linflight := [(2, 3)] } } 1024 0x0506 [(0x10, 2, 5), (0x12, 2, 2)] three
      (fun s c d => retire s c d && decide (lineInflight c 2 ≠ 0)) ∧
    Meets inUse 5 0x0507 [(0x10, 2, 5), (0x12, 2, 7)] [(0x10, 10), (0x12, 12)]
      (fun _ c _ => ownTenant 5 5 && inLineQuota (tenantCfg c.cfg 5) 7 && !inLineQuota (tenantCfg c.cfg 5) 8) :=
  ⟨meets_holds (by decide +kernel), meets_holds (by decide +kernel), meets_holds (by decide +kernel),
    meets_holds (by decide +kernel), meets_holds (by decide +kernel)⟩

/-- A range of one unit armed. -/
theorem witness_RangeCommands_arm :
    Meets inUse 5 0x0601 [(0x10, 4, 1), (0x18, 4, 2), (0x20, 8, 9), (0x28, 8, 9)]
      [(0x10, 20), (0x14, 8), (0x18, 20), (0x1C, 8), (0x20, 64), (0x28, 64)]
      (fun _ c cmd => decide (armFail c 5 cmd = none)) :=
  meets_holds (by decide +kernel)

/-- Job 4,095 in a state, for a command of its tenant that passes `more`. -/
abbrev OnRange (op : Nat) (r : Range) (more : Chip → Range → Bool) : Prop :=
  Meets { inUse with ranges := [(4095, some r)] } 5 op [(0x10, 2, 4095)]
    (if op = 0x0605 then [(0x10, 16), (0x12, 1)] else [(0x10, 16)])
    (fun _ c cmd => match ownRange c 5 cmd with
      | some (j, q) => decide (j = 4095) && decide (q = r) && more c q
      | none => false)

/-- Start, pause, resume, abort and query, each in states that the clauses name, with B at HI and one past it. -/
theorem witness_RangeCommands_control :
    let w : Window := { e := 20, isOpen := true, fseq := 3, outBegun := true, outDone := true }
    let any (_ : Chip) (_ : Range) : Bool := true
    OnRange 0x0602 (aRange .armed 0 none false) (fun c r => !rangeStale c r) ∧ OnRange 0x0602 (aRange .opened 0 none false) any ∧
    OnRange 0x0602 (aRange .done 20 none false) any ∧
    OnRange 0x0602 { aRange .armed 0 none false with ngen := 1 } (fun c r => rangeStale c r) ∧ OnRange 0x0603 (aRange .opened 0 none false) any ∧
    OnRange 0x0603 (aRange .window 0 (some w) false) any ∧ OnRange 0x0603 (aRange .stopped 0 none false) any ∧
    OnRange 0x0603 (aRange .armed 0 none false) any ∧ OnRange 0x0604 (aRange .window 0 (some w) true) any ∧
    OnRange 0x0604 (aRange .paused 19 none false) (fun _ r => decide (r.b ≤ r.hi)) ∧
    OnRange 0x0604 (aRange .frozen 20 none false) (fun _ r => decide (r.hi < r.b)) ∧
    OnRange 0x0604 (aRange .armed 0 none false) any ∧ OnRange 0x0605 (aRange .armed 0 none false) any ∧
    OnRange 0x0605 (aRange .window 0 (some w) false) any ∧ OnRange 0x0605 (aRange .frozen 0 none false) any ∧
    OnRange 0x0606 (aRange .window 0 (some w) false) any :=
  ⟨meets_holds (by decide +kernel), meets_holds (by decide +kernel), meets_holds (by decide +kernel), meets_holds (by decide +kernel), meets_holds (by decide +kernel),
    meets_holds (by decide +kernel), meets_holds (by decide +kernel), meets_holds (by decide +kernel), meets_holds (by decide +kernel),
    meets_holds (by decide +kernel), meets_holds (by decide +kernel), meets_holds (by decide +kernel), meets_holds (by decide +kernel),
    meets_holds (by decide +kernel), meets_holds (by decide +kernel), meets_holds (by decide +kernel)⟩

/-- A rekey started with the key of entry 2; a job paused, resumed, and given up at its first line. -/
theorem witness_RangeCommands_rekey :
    let f := [(0x10, 16), (0x12, 8), (0x13, 8), (0x14, 12)]
    let moving (j : LineJob) : Chip := { lineChip .enabled { bound := 1024 } true j with
      lines := (List.range 32).map fun i => (i, { st := .enabled }) }
    let ctl (a : Nat) (j : LineJob) := Meets (moving j) 1024 0x0607 [(0x12, 1, a)] f
      (fun _ c cmd => rekeyFieldsOk c cmd && decide (regionJob c 0 = some (0, j)) && decide (rekeyCtlFail c 0 a = none))
    Meets inUse 1024 0x0607 [(0x12, 1, 1), (0x14, 2, 2)] f
      (fun _ c cmd => rekeyFieldsOk c cmd && decide (rekeyStartFail c 0 0 2 = none)) ∧
    ctl 2 aJob ∧ ctl 3 { aJob with paused := true } ∧ ctl 4 { aJob with rb := 0, win := 0 } :=
  ⟨meets_holds (by decide +kernel), meets_holds (by decide +kernel), meets_holds (by decide +kernel), meets_holds (by decide +kernel)⟩

/-- The last pattern entry of the last port loaded, cleared when empty and when loaded, and read. -/
theorem witness_PatternCommands :
    let at_ := [(0x10, 2, 5), (0x12, 1, 63), (0x13, 1, 31)]
    let three := [(0x10, 16), (0x12, 8), (0x13, 8)]
    let loaded : Chip := setPort inUse 63 { cur := { patterns := [(31, BitVec.ofNat 256 (1 + field 66 10 5))] } }
    let ok (_ : State) (c : Chip) (cmd : CommandWord) : Bool := !patternDenied c 5 cmd && patternRangeOk cmd && !patternForeign c cmd
    Meets inUse 5 0x0704 (at_ ++ [(0x14, 1, 3), (0x18, 4, 0x21)]) [(0x10, 16), (0x12, 8), (0x13, 8), (0x14, 8), (0x18, 32)]
      (fun s c cmd => ok s c cmd && decide (patternLoadFail c cmd = none)) ∧
    Meets inUse 5 0x0705 at_ three (fun s c cmd => ok s c cmd && !(patternOf c 63 31).getLsbD 0) ∧
    Meets loaded 5 0x0705 at_ three (fun s c cmd => ok s c cmd && (patternOf c 63 31).getLsbD 0 && !patternInUse c 63 31) ∧
    Meets loaded 5 0x0706 at_ three ok :=
  ⟨meets_holds (by decide +kernel), meets_holds (by decide +kernel), meets_holds (by decide +kernel), meets_holds (by decide +kernel)⟩

/-- A profile at each end of its ranges; one as it is, one in use, one with two generations live; a clear; a query. -/
theorem witness_ProfileCommands :
    let f := [(0x10, 8), (0x11, 8), (0x12, 8)]
    let old (c : Chip) (i : Nat) : Nat := (Tbl.get (0#32) c.cfg.profiles i).toNat
    let busy : Chip := setPort inUse 0 { reqs := [{ sb := BitVec.ofNat 256 (field 0 4 4 ||| field 76 6 3), ck := 4, cm := 2 }] }
    Meets ready 1024 0x0701 [(0x10, 1, 63), (0x11, 1, 24), (0x12, 1, 8)] f (fun _ c _ => decide (old c 63 = 0) && !profileBusy c 63 && !c.live2) ∧
    Meets ready 1024 0x0701 [(0x10, 1, 64), (0x11, 1, 2), (0x12, 1, 1)] f nothing ∧
    Meets inUse 1024 0x0701 [(0x10, 1, 3), (0x11, 1, 4), (0x12, 1, 2)] f (fun _ c _ => decide (old c 3 = 2 ^ 31 + 0x402)) ∧
    Meets { inUse with live2 := true } 1024 0x0701 [(0x10, 1, 3), (0x11, 1, 2), (0x12, 1, 1)] f
      (fun _ c _ => decide (old c 3 = 2 ^ 31 + 0x402) && !profileBusy c 3 && c.live2) ∧
    Meets inUse 1024 0x0702 [(0x10, 1, 3)] [(0x10, 8)] (fun _ c _ => decide (old c 3 ≠ 0) && !profileBusy c 3 && !c.live2) ∧
    Meets busy 1024 0x0703 [(0x10, 1, 3)] [(0x10, 8)] nothing :=
  ⟨meets_holds (by decide +kernel), meets_holds (by decide +kernel), meets_holds (by decide +kernel),
    meets_holds (by decide +kernel), meets_holds (by decide +kernel), meets_holds (by decide +kernel)⟩

/-- Both halves of a descriptor staged, one word short, a query in no group and in one, an export, a leave. -/
theorem witness_GroupCommands :
    let blob (n : Nat) : Chip := { inUse with mbs := [(1024, { blob := (List.range n).map fun i => (i, some (BitVec.ofNat 64 i)) })] }
    let desc : List Byte := zeros 8 ++ [4] ++ zeros 247
    let group : Chip := { inUse with fw := { group := 2, desc := desc }
                                     keys := { inUse.keys with
                                       gtkCur := some ⟨4, heldKey⟩
                                       keks := [(82, { source := 2, record := heldKey })] } }
    Meets (blob 16) 1024 0x0801 [(0x12, 2, 128)] [(0x10, 1), (0x12, 16)] (fun s _ _ => blobWords (callOf s 1024 3).blob 128) ∧
    Meets (blob 15) 1024 0x0801 [(0x10, 1, 1), (0x12, 2, 128)] [(0x10, 1), (0x12, 16)] (fun s _ _ => !blobWords (callOf s 1024 3).blob 128) ∧
    Meets ready 1024 0x0803 [] [] nothing ∧ Meets group 1024 0x0803 [] [] nothing ∧
    Meets group 1024 0x0804 [(0x10, 1, 2), (0x12, 2, 5)] [(0x10, 8), (0x12, 16)]
      (fun _ c _ => (exportGtk c).isSome && (kekKey c 82).isSome && !kekReserved c 82) ∧
    Meets group 1024 0x0805 [] [] (fun _ c _ => decide (leaveFail c 1024 = none)) :=
  ⟨meets_holds (by decide +kernel), meets_holds (by decide +kernel), meets_holds (by decide +kernel),
    meets_holds (by decide +kernel), meets_holds (by decide +kernel), meets_holds (by decide +kernel)⟩

/-- A Pip read and one past the end; a search that finds one; a time mark; a flush of an empty recorder, of a full log, and one
that waits. -/
theorem witness_RecordCommands :
    let f := [(0x10, 32), (0x14, 1)]
    let full : Chip := { ready with recorder := { full := true, filling := [0] } }
    Meets inUse 1024 0x0902 [(0x10, 4, 0)] f (fun s _ _ => decide (pipAt (started s 1024 3) 0 = some 0)) ∧
    Meets inUse 1024 0x0902 [(0x10, 4, 1)] f (fun s _ _ => decide (pipAt (started s 1024 3) 1 = none)) ∧
    Meets inUse 5 0x0902 [(0x10, 4, 0)] f (fun s _ _ => decide (pipAt (started s 5 3) 0 = some 0) && decide (pipTenant 0 ≠ some 5)) ∧
    Meets inUse 1024 0x0902 [(0x10, 4, 0), (0x14, 1, 1)] f (fun s _ _ => decide (pipAt (started s 1024 3) 0 = some 0)) ∧
    Meets inUse 5 0x0902 [(0x10, 4, 0), (0x14, 1, 1)] f (fun s _ _ => decide (pipAt (started s 5 3) 0 = some 0) && decide (pipTenant 0 ≠ some 5) &&
      decide (pipAt (started s 5 3) 1 = none)) ∧
    Meets ready 1024 0x0903 [(0x10, 8, 2 ^ 64 - 1), (0x18, 1, 255)] [(0x10, 64), (0x18, 8)] nothing ∧
    Meets ready 1024 0x0904 [] [] (fun _ c _ => decide (c.recorder.filling = [])) ∧
    Meets full 1024 0x0904 [] [] (fun _ c _ => c.recorder.full) ∧
    Meets inUse 1024 0x0904 [] [] (fun _ c _ => decide (c.recorder.filling ≠ []) && !c.recorder.full && decide (c.recorder.handed = [])) :=
  ⟨meets_holds (by decide +kernel), meets_holds (by decide +kernel), meets_holds (by decide +kernel), meets_holds (by decide +kernel),
    meets_holds (by decide +kernel), meets_holds (by decide +kernel), meets_holds (by decide +kernel), meets_holds (by decide +kernel),
    meets_holds (by decide +kernel)⟩

theorem witness_LogStatusReturns : Meets inUse 1024 0x0901 [] [] nothing := meets_holds (by decide +kernel)

/-- Faults: a source and none, a severity above the floor, at it and below it. -/
theorem witness_FaultCommands_faults :
    let src := srcSub 0x0B
    let ix := srcSticky src
    let at_ (n : Nat) : Bool := match ix with | some i => decide (floorSev i = n) | none => false
    Meets inHalt 1024 0x0A01 [(0x10, 2, src)] [(0x10, 16)] (fun _ _ _ => ix.isSome) ∧
    Meets inHalt 1024 0x0A01 [(0x10, 2, 0xFFFF)] [(0x10, 16)] (fun _ _ _ => (srcSticky 0xFFFF).isNone) ∧
    Meets ready 1024 0x0A02 [(0x10, 2, src), (0x12, 1, 4)] [(0x10, 16), (0x12, 8)]
      (fun s _ _ => ix.isSome && !rindDisabled (started s 1024 3) src) ∧
    Meets ready 1024 0x0A02 [(0x10, 2, src), (0x12, 1, 3)] [(0x10, 16), (0x12, 8)]
      (fun s _ _ => at_ 3 && !rindDisabled (started s 1024 3) src) ∧
    Meets ready 1024 0x0A02 [(0x10, 2, src), (0x12, 1, 2)] [(0x10, 16), (0x12, 8)]
      (fun s _ _ => at_ 3 && !rindDisabled (started s 1024 3) src) :=
  ⟨meets_holds (by decide +kernel), meets_holds (by decide +kernel), meets_holds (by decide +kernel),
    meets_holds (by decide +kernel), meets_holds (by decide +kernel)⟩

/-- Units: a query; a fence of an ACTIVE and of a fenced one, with a stale SGEN and not, with a live table that has moved, of one
being reset, and of the control port, in service and being reset; a revive of each; both settings of XN_FAULT_CTL at their ends. -/
theorem witness_FaultCommands_units :
    let id := srcCluster 5
    let down : Chip := setUnit ready id { live := .down, mirror := .down, sgen := 65535, msgen := 65535 }
    let f := [(0x10, 16), (0x12, 16)]
    let live (st : UState) (_ : State) (c : Chip) (cmd : CommandWord) : Bool :=
      decide (unitNamed id = some id) && decide ((getUnit c id).live = st) && decide ((getUnit c id).msgen = cb cmd 0x12 2)
    let ctl (ps : List (Nat × Nat × Nat)) := Meets ready 1024 0x0A06 ps [(0x10, 2), (0x12, 16), (0x14, 16)] (fun _ _ cmd => faultCtlOk cmd)
    Meets ready 1024 0x0A03 [(0x10, 2, id)] [(0x10, 16)] nothing ∧ Meets ready 1024 0x0A03 [(0x10, 2, 0xFFFF)] [(0x10, 16)] (fun _ _ _ => (unitNamed 0xFFFF).isNone) ∧
    Meets ready 1024 0x0A04 [(0x10, 2, id), (0x12, 2, 1)] f (fun s c cmd => !live .active s c cmd) ∧
    Meets ready 1024 0x0A04 [(0x10, 2, id)] f (fun s c cmd => live .active s c cmd && decide (fenceCheck (started s 1024 3) id = none) && !isUnit5 6 id) ∧
    Meets down 1024 0x0A04 [(0x10, 2, id), (0x12, 2, 65535)] f (live .down) ∧
    Meets (setUnit ready id { sgen := 1 }) 1024 0x0A04 [(0x10, 2, id)] f
      (fun s c cmd => live .active s c cmd && decide (fenceCheck (started s 1024 3) id = none) && decide ((getUnit c id).sgen = 1)) ∧
    Meets (setUnit ready id { live := .fenced, mirror := .fenced, resetting := true }) 1024 0x0A04 [(0x10, 2, id)] f
      (fun s c cmd => live .fenced s c cmd && decide (fenceCheck (started s 1024 3) id = none) && (getUnit c id).resetting &&
        decide ((getUnit c id).fenceNext = none) && !isUnit5 6 id) ∧
    Meets ready 1024 0x0A04 [(0x10, 2, srcControl)] f (fun _ c _ => isUnit5 6 srcControl && !(getUnit c srcControl).resetting) ∧
    Meets (setUnit ready srcControl { live := .fenced, mirror := .fenced, resetting := true }) 1024 0x0A04 [(0x10, 2, srcControl)] f
      (fun _ c _ => decide ((getUnit c srcControl).live = .fenced) && (getUnit c srcControl).resetting) ∧
    Meets ready 1024 0x0A05 [(0x10, 2, id)] f (live .active) ∧
    Meets down 1024 0x0A05 [(0x10, 2, id), (0x12, 2, 65535)] f (fun s c cmd => live .down s c cmd && decide ((getUnit c id).mirror = .down) &&
      match srcSticky id with | some ix => !(getSticky c ix).bit | none => true) ∧
    ctl [(0x10, 1, 3), (0x12, 2, 400), (0x14, 2, 1024)] ∧ ctl [(0x10, 1, 3), (0x12, 2, 1), (0x14, 2, 820)] ∧ ctl [] :=
  ⟨meets_holds (by decide +kernel), meets_holds (by decide +kernel), meets_holds (by decide +kernel), meets_holds (by decide +kernel),
    meets_holds (by decide +kernel), meets_holds (by decide +kernel), meets_holds (by decide +kernel), meets_holds (by decide +kernel),
    meets_holds (by decide +kernel), meets_holds (by decide +kernel), meets_holds (by decide +kernel), meets_holds (by decide +kernel),
    meets_holds (by decide +kernel), meets_holds (by decide +kernel)⟩

/-- A session of each target opened at its whole size, a write of its last page, an abandonment, one with no job handle free, a
close whose image fails its checks, both activations, the last SVN. -/
theorem witness_FirmwareCommands :
    let fl (f : Fw) : Chip := { inUse with fw := f }
    let img : Img := { st := .verified, release := 2, svn := 64 }
    let g (spans : List (Nat × Nat)) : Stage := { mb := 1024, target := 2, which := 0, length := 512, spans := spans, jobs := [] }
    Meets ready 1024 0x0B01 [] [] nothing ∧
    Meets inUse 1024 0x0B02 [(0x10, 1, 1), (0x14, 4, 0x01000000)] [(0x10, 8), (0x14, 32)] (fun _ c cmd => decide (stageOpenFail c 1024 cmd = none)) ∧
    Meets inUse 1027 0x0B02 [(0x10, 1, 2), (0x14, 4, 256)] [(0x10, 8), (0x14, 32)] (fun _ c cmd => decide (stageOpenFail c 1027 cmd = none)) ∧
    Meets (fl { stage := some (g []) }) 1024 0x0B03 [(0x10, 8, 256), (0x18, 4, 256)] [(0x10, 96)]
      (fun _ c cmd => decide (stageWriteFail c 1024 cmd = none)) ∧
    Meets (fl { stage := some (g []) }) 1024 0x0B04 [(0x10, 1, 2)] [(0x10, 8)] (fun _ c _ => jobFree c 1024) ∧
    Meets { fl { stage := some (g []) } with mbs := [(1024, { jobs := List.replicate 4 { handle := 0, opcode := 1 } })] } 1024 0x0B04
      [(0x10, 1, 2)] [(0x10, 8)] (fun _ c _ => !jobFree c 1024) ∧
    Meets (fl { stage := some (g [(0, 512)]) }) 1024 0x0B04 [(0x10, 1, 1)] [(0x10, 8)] (fun s c _ => jobFree c 1024 &&
      decide (stagedBytes (g [(0, 512)]) = 512) &&
      match stageVerdict (started s 1024 3) (g [(0, 512)]) with | .error _ => true | .ok _ => false) ∧
    Meets (fl { imgB := img }) 1024 0x0B05 [(0x10, 1, 1), (0x11, 1, 1)] [(0x10, 16)] (fun _ c cmd => decide (activateFail c 1024 cmd = none)) ∧
    Meets (fl { imgB := img }) 1024 0x0B05 [(0x10, 1, 1), (0x11, 1, 2)] [(0x10, 16)] (fun _ c cmd => decide (activateFail c 1024 cmd = none)) ∧
    Meets (fl { imgA := img }) 1024 0x0B06 [(0x10, 1, 64), (0x18, 8, svnConfirm)] [(0x10, 8), (0x18, 64)]
      (fun s c cmd => decide (s.otp.svn < cb cmd 0x10 1) && decide (64 ≤ (runningImg c).svn) && decide (cb cmd 0x18 8 = svnConfirm)) :=
  ⟨meets_holds (by decide +kernel), meets_holds (by decide +kernel), meets_holds (by decide +kernel), meets_holds (by decide +kernel), meets_holds (by decide +kernel), meets_holds (by decide +kernel),
    meets_holds (by decide +kernel), meets_holds (by decide +kernel), meets_holds (by decide +kernel), meets_holds (by decide +kernel)⟩

/-! ### The state after reset, and every step -/

theorem witness_FlashStaysCanonical : FlashCanonical State.reset ∧ Tbl.wf (BitVec.allOnes 2048) [(3, (0 : BitVec 2048))] = true := by
  unfold FlashCanonical; decide +kernel

/-- Steps that answer next: a tick, and the last fuse of the lock. -/
theorem witness_OtpNeverShrinks : nextIs (step State.reset) (fun _ => true) = true ∧
    nextIs (step { State.reset with pending := [.powerLoss] }) (fun t => decide (t.pending = [])) = true := by decide +kernel

end Sys2Proof.Tests
end

/-! What XN_DUAL_STATUS reports: the session as the start of an officer's command leaves it (R128), laid out by Table 12.17
(R289). -/

namespace Sys2Proof.Machine

/-! ### The session when an officer's command starts -/

theorem setOfficer_session (ch : Chip) (o : Nat) (v : Officer) : (setOfficer ch o v).keys.session = ch.keys.session := by
  unfold setOfficer
  split <;> rfl

theorem consumeChallenge_session (ch : Chip) (o : Nat) : (consumeChallenge ch o).keys.session = ch.keys.session := by
  unfold consumeChallenge
  extract_lets f d
  split
  · exact setOfficer_session _ _ _
  · exact setOfficer_session _ _ _

theorem lockoutOver_session (ch : Chip) (o : Nat) : (lockoutOver ch o).keys.session = ch.keys.session := by
  unfold lockoutOver
  dsimp only
  split
  · split
    · exact setOfficer_session _ _ _
    · rfl
  · rfl

/-- The session that ends keeps what it was opened with but its share (R128). -/
theorem endSession_session (ch : Chip) (cause : Nat) (h : sessionOpen ch.keys.session = true) :
    (endSession ch cause).keys.session = { ch.keys.session with share := [], state := 5, cause := cause } := by
  unfold endSession
  simp [h]

theorem expireSession_of_expired (ch : Chip) (h : sessionOpen ch.keys.session = true)
    (he : ch.keys.session.expiry ≤ nowUs ch) : expireSession ch = endSession ch 1 := by
  unfold expireSession
  simp [h, he]

/-- Of what a start does on an officer page, only the test of expiry touches the session. -/
theorem started_session (s : State) (mb slot o : Nat) (hO : officerOf mb = some o) :
    (started s mb slot).chip.keys.session = (expireSession (turnChip s mb slot)).keys.session := by
  rw [started_eq, hO]
  dsimp only
  rw [setOfficer_session, consumeChallenge_session]
  unfold startChip timesEnded
  rw [hO]
  exact lockoutOver_session _ _

/-- A session whose window has passed has ended as expired before the officer's command runs (R128). -/
theorem started_session_expired (s : State) (mb slot o : Nat) (hO : officerOf mb = some o)
    (hopen : sessionOpen s.chip.keys.session = true) (hexp : s.chip.keys.session.expiry ≤ nowUs s.chip) :
    (started s mb slot).chip.keys.session = { s.chip.keys.session with share := [], state := 5, cause := 1 } := by
  have hkeys : (turnChip s mb slot).keys = s.chip.keys := by rw [turnChip_eq]
  have hnow : nowUs (turnChip s mb slot) = nowUs s.chip := by rw [turnChip_eq]; rfl
  have hopen' : sessionOpen (turnChip s mb slot).keys.session = true := by rw [hkeys]; exact hopen
  rw [started_session s mb slot o hO, expireSession_of_expired _ hopen' (by rw [hkeys, hnow]; exact hexp),
    endSession_session _ _ hopen', hkeys]

/-- XN_DUAL_STATUS is served on the officer pages only (Table 12.1). -/
theorem officerOf_of_served_dualStatus {s : State} {mb : Fin 1028} {slot : Nat} {cmd : CommandWord}
    (h : Served s mb slot 0x0C04 cmd) : ∃ o, officerOf mb = some o := by
  obtain ⟨i, hi, hm, _⟩ := h.info
  obtain rfl : (⟨false, true, false, false, true⟩ : OpInfo) = i := Option.some.inj hi
  have hpage : mb.val = 1025 ∨ mb.val = 1026 := by
    have hlt := mb.isLt
    unfold mayIssue at hm
    split at hm
    · cases hm
    · split at hm
      · cases hm
      · split at hm
        · cases hm
        · omega
  rcases hpage with ha | hb
  · exact ⟨0, by rw [ha]; rfl⟩
  · exact ⟨1, by rw [hb]; rfl⟩

/-! ### RESULT of XN_DUAL_STATUS -/

/-- A field of RESULT reads the low bytes of what was put there. -/
theorem bytesAt_rb_self (off n v off' : Nat) (h : off' = off - 16) : bytesAt (rb off n v) off' n = v % 2 ^ (8 * n) := by
  subst h
  unfold rb
  rw [bytesAt_putAt_in _ _ _ _ _ (Nat.le_refl _) (Nat.le_refl _), Nat.sub_self]
  simp [bytesAt, bits]

/-- A field of RESULT leaves the bytes beside it zero. -/
theorem bytesAt_rb_other (off n v off' n' : Nat) (h : off' + n' ≤ off - 16 ∨ off - 16 + n ≤ off') :
    bytesAt (rb off n v) off' n' = 0 := bytesAt_putAt_out _ _ _ _ _ h

/-- A field of RESULT that is present on a condition is there always, and else holds zero. -/
theorem ite_rb (p : Prop) [Decidable p] (off n v : Nat) : (if p then rb off n v else 0) = rb off n (if p then v else 0) := by
  split
  · rfl
  · simp [rb, putAt, field]

/-- Table 12.17, with CAUSE and KCV zero where the session has none. -/
theorem sessionResult_eq (n : Session) : sessionResult n =
    rb 0x10 2 n.num ||| rb 0x12 1 n.purpose ||| rb 0x13 1 n.state ||| rb 0x14 1 (if n.state = 5 then n.cause else 0) |||
      rb 0x18 8 n.expiry ||| rb 0x20 3 (if n.state = 4 then ofLE n.kcv else 0) := by
  rw [← ite_rb, ← ite_rb]
  rfl

/-- The fields of Table 12.17 in the response that answers with a session (R289). -/
theorem respAt_sessionResult (s t : State) (mb slot : Nat) (n : Session) :
    let a := answered s mb slot t (okWith (sessionResult n))
    respAt a mb slot 0x10 2 = n.num % 2 ^ 16 ∧ respAt a mb slot 0x12 1 = n.purpose % 2 ^ 8 ∧
      respAt a mb slot 0x13 1 = n.state % 2 ^ 8 ∧ respAt a mb slot 0x14 1 = (if n.state = 5 then n.cause else 0) % 2 ^ 8 ∧
      respAt a mb slot 0x18 8 = n.expiry % 2 ^ 64 ∧
      respAt a mb slot 0x20 3 = (if n.state = 4 then ofLE n.kcv else 0) % 2 ^ 24 := by
  have hresp (off k : Nat) (h0 : 16 ≤ off) (h : off + k ≤ 0x30) :
      respAt (answered s mb slot t (okWith (sessionResult n))) mb slot off k = bytesAt (sessionResult n) (off - 16) k :=
    respAt_answered_result s mb slot t _ off k h0 h
  refine ⟨?_, ?_, ?_, ?_, ?_, ?_⟩ <;>
    · rw [hresp _ _ (by omega) (by omega), sessionResult_eq]
      simp (disch := omega) only [bytesAt_or, bytesAt_rb_self, bytesAt_rb_other, Nat.or_zero, Nat.zero_or]

/-! ### The command -/

/-- A served XN_DUAL_STATUS answers with the session as its start left it, and does nothing else. -/
theorem exec_xnDualStatus_served (mb : Fin 1028) (slot : Nat) (cmd : CommandWord) (s : State)
    (h : Served s mb slot 0x0C04 cmd) (hp : paramsOk cmd [] = true) :
    exec (.xnDualStatus mb) s =
      .next (answered s mb slot (started s mb slot) (okWith (sessionResult (started s mb slot).chip.keys.session))) := by
  have hexec : exec (.xnDualStatus mb) s = execXnDualStatus mb s := rfl
  rw [hexec]
  unfold execXnDualStatus onState
  rw [if_pos h.powered]
  dsimp only
  rw [runCommand_served s mb slot 0x0C04 cmd _ _ _ h rfl hp]

/-- Settles O55: the response carries the session that the command's start leaves, and the start has ended one whose window
has passed. -/
theorem dualStatusReports : Obligations.DualStatusReports := by
  unfold Obligations.DualStatusReports
  intro mb slot cmd s h hp
  dsimp only
  obtain ⟨o, hO⟩ := officerOf_of_served_dualStatus h
  obtain ⟨hnum, hpurpose, hstate, hcause, hexpiry, hkcv⟩ :=
    respAt_sessionResult s (started s mb slot) mb slot (started s mb slot).chip.keys.session
  refine ⟨fun hopen hexp => ?_, _, exec_xnDualStatus_served mb slot cmd s h hp, ?_, ?_, ?_, hnum, hpurpose, hstate, ?_, hexpiry,
    ?_, ?_⟩
  · rw [started_session_expired s mb slot o hO hopen hexp]
    exact ⟨rfl, rfl⟩
  · exact answered_responded s mb slot _ (okWith _) (by simp [okWith]) (by simp [okWith])
  · exact answered_keys _ _ _ _ _
  · rw [answered_cfg, started_cfg]
  · exact fun h5 => hcause.trans (congrArg (· % 2 ^ 8) (if_pos h5))
  · exact fun h4 => hkcv.trans (congrArg (· % 2 ^ 24) (if_pos h4))
  · exact fun h4 => hkcv.trans (congrArg (· % 2 ^ 24) (if_neg h4))

end Sys2Proof.Machine

/-! The stripe profile commands: the two that change a profile by the order of their checks, and the query (R303). -/

namespace Sys2Proof.Machine

/-! ### A served command that answers at once -/

theorem callOf_cmd_of_served {s : State} {mb slot op : Nat} {cmd : CommandWord} (h : Served s mb slot op cmd) :
    (callOf s mb slot).cmd = cmd := h.word

/-- A served command whose own part replies is answered with that reply. -/
theorem onState_runCommand_reply {s t : State} {mb slot op : Nat} {cmd : CommandWord} {want : Nat → Bool}
    {fields : List (Nat × Nat)} {own : State → Call → State × Act} {r : Reply} (h : Served s mb slot op cmd)
    (hw : want op = true) (hp : paramsOk cmd fields = true)
    (ho : own (started s mb slot) (callOf s mb slot) = (t, .reply r)) :
    onState s (fun s => runCommand s mb want fields own) = .next (answered s mb slot t r) := by
  unfold onState
  rw [if_pos h.powered]
  dsimp only
  rw [runCommand_served s mb slot op cmd want fields own h hw hp, ho]

/-! ### The values that a profile command carries -/

/-- Check 1 of XN_PROFILE_SET is the ranges of R155. -/
theorem profileRangeOk_set_iff (cmd : CommandWord) : profileRangeOk true cmd = true ↔
    cb cmd 0x10 1 < 64 ∧ 2 ≤ cb cmd 0x11 1 ∧ cb cmd 0x11 1 ≤ 24 ∧ 1 ≤ cb cmd 0x12 1 ∧ cb cmd 0x12 1 ≤ 8 := by
  simp [profileRangeOk, and_assoc]

/-- Check 1 of XN_PROFILE_CLEAR is the range of PROFILE alone. -/
theorem profileRangeOk_clear_iff (cmd : CommandWord) : profileRangeOk false cmd = true ↔ cb cmd 0x10 1 < 64 := by
  simp [profileRangeOk]

/-- Table 7.1 as a sum: VALID, K and M do not overlap while K has 5 bits and M has 4. -/
theorem profileWord_eq_sum {k m : Nat} (hk : k < 32) (hm : m < 16) :
    profileWord k m = BitVec.ofNat 32 (2 ^ 31 + 256 * k + m) := by
  have hkm : k <<< 8 ||| m = 256 * k + m := by
    rw [← Nat.shiftLeft_add_eq_or_of_lt (by omega), Nat.shiftLeft_eq, Nat.mul_comm]
  have hvalid : 1 <<< 31 ||| (256 * k + m) = 2 ^ 31 + 256 * k + m := by
    rw [← Nat.shiftLeft_add_eq_or_of_lt (by omega), Nat.shiftLeft_eq, Nat.one_mul, Nat.add_assoc]
  have hfields : field 31 1 1 ||| field 8 5 k ||| field 0 4 m = 2 ^ 31 + 256 * k + m := by
    rw [← hvalid, ← hkm, ← Nat.or_assoc]
    simp [field, Nat.mod_eq_of_lt hk, Nat.mod_eq_of_lt hm]
  rw [profileWord, hfields]

/-! ### What the two changing commands do, by the order of their checks -/

section
variable {set : Bool} {s : State} {c : Call}

theorem profileCommand_outOfRange (hr : profileRangeOk set c.cmd ≠ true) :
    profileCommand set s c = (s, .reply (failAt 1 stBadField)) := by
  simp [profileCommand, hr]

theorem profileCommand_held (hr : profileRangeOk set c.cmd = true)
    (hw : Tbl.get (0#32) s.chip.cfg.profiles (cb c.cmd 0x10 1) = profileAfter set c.cmd) :
    profileCommand set s c = (s, .reply {}) := by
  simp [profileCommand, hr, hw]

variable (hr : profileRangeOk set c.cmd = true)
  (hw : Tbl.get (0#32) s.chip.cfg.profiles (cb c.cmd 0x10 1) ≠ profileAfter set c.cmd)
include hr hw

theorem profileCommand_busy (hb : profileBusy s.chip (cb c.cmd 0x10 1) = true) :
    profileCommand set s c = (s, .reply (failAt 2 stBusy)) := by
  simp [profileCommand, hr, hw, hb]

theorem profileCommand_genBusy (hb : profileBusy s.chip (cb c.cmd 0x10 1) = false) (hl : s.chip.live2 = true) :
    profileCommand set s c = (s, .reply (failAt 3 stGenBusy)) := by
  simp [profileCommand, hr, hw, hb, hl]

theorem profileCommand_changes (hb : profileBusy s.chip (cb c.cmd 0x10 1) = false) (hl : s.chip.live2 = false) :
    profileCommand set s c = ({ s with chip := newGeneration s.chip (cfgProfile set c.cmd) }, .reply {}) := by
  simp [profileCommand, hr, hw, hb, hl]
end

/-! ### The commands -/

/-- A served XN_PROFILE_QUERY of a profile in range answers with its word and the three counts, and does nothing else. -/
theorem exec_xnProfileQuery_served (mb : Fin 1028) (slot : Nat) (cmd : CommandWord) (s : State)
    (h : Served s mb slot 0x0703 cmd) (hp : paramsOk cmd [(0x10, 8)] = true) (hprof : cb cmd 0x10 1 < 64) :
    exec (.xnProfileQuery mb) s = .next (answered s mb slot (started s mb slot) (okWith
      (rb 0x10 4 (Tbl.get (0#32) (started s mb slot).chip.cfg.profiles (cb cmd 0x10 1)).toNat |||
        rb 0x14 2 (openRows (started s mb slot).chip (cb cmd 0x10 1)) |||
        rb 0x16 2 (codingReqs (started s mb slot).chip (cb cmd 0x10 1)) |||
        rb 0x18 2 (patternsOf (started s mb slot).chip (cb cmd 0x10 1))))) := by
  have hexec : exec (.xnProfileQuery mb) s = execXnProfileQuery mb s := rfl
  rw [hexec]
  refine onState_runCommand_reply h rfl hp ?_
  simp [callOf_cmd_of_served h, Nat.not_le.2 hprof]

/-- Settles O56: both changing commands run the one checked part, a set with the word of Table 7.1 and its check coefficients,
a clear with neither; each outcome is the branch that the order of the checks reaches. -/
theorem profileCommands : Obligations.ProfileCommands := by
  unfold Obligations.ProfileCommands
  intro mb slot cmd s T ch p done prof old now follows
  have hfollows (set : Bool) (i : Instr) (inRange : Prop) (w : BitVec 32) (checks : List Byte)
      (hcmd : (callOf s mb slot).cmd = cmd) (hrange : profileRangeOk set cmd = true ↔ inRange)
      (hword : inRange → profileAfter set cmd = w)
      (hchecks : (if set then encodeChecks (p 0x11 1) (p 0x12 1) else []) = checks)
      (hreply : ∀ {t r}, profileCommand set T (callOf s mb slot) = (t, .reply r) → exec i s = done t r) :
      follows i inRange w checks := by
    have hne (hr : inRange) (hold : old ≠ w) : old ≠ profileAfter set cmd := hword hr ▸ hold
    subst hcmd
    refine ⟨fun hr => hreply (profileCommand_outOfRange (mt hrange.1 hr)),
      fun hr hold => hreply (profileCommand_held (hrange.2 hr) (hold.trans (hword hr).symm)),
      fun hr hold hb => hreply (profileCommand_busy (hrange.2 hr) (hne hr hold) hb),
      fun hr hold hb hl => hreply (profileCommand_genBusy (hrange.2 hr) (hne hr hold) hb hl),
      fun hr hold hb hl => ⟨newGeneration ch (cfgProfile set (callOf s mb slot).cmd), ⟨?_, ?_, ?_, ?_, rfl⟩,
        hreply (profileCommand_changes (hrange.2 hr) (hne hr hold) hb hl)⟩⟩
    · exact (Tbl.get_set_self _ _ _ _).trans (hword hr)
    · exact (Tbl.get_set_self _ _ _ _).trans hchecks
    · exact fun j hj => Tbl.get_set_other _ _ hj _
    · exact fun j hj => Tbl.get_set_other _ _ hj _
  refine ⟨fun h hp => ?_, fun h hp => ?_, fun h hp hprof => exec_xnProfileQuery_served mb slot cmd s h hp hprof⟩
  · refine hfollows true _ _ _ _ (callOf_cmd_of_served h) (profileRangeOk_set_iff cmd) (fun hr => ?_) rfl
      (onState_runCommand_reply h rfl hp)
    obtain ⟨-, -, hk, -, hm⟩ := hr
    exact profileWord_eq_sum (Nat.lt_of_le_of_lt hk (by decide)) (Nat.lt_of_le_of_lt hm (by decide))
  · exact hfollows false _ _ _ _ (callOf_cmd_of_served h) (profileRangeOk_clear_iff cmd) (fun _ => rfl) rfl
      (onState_runCommand_reply h rfl hp)

end Sys2Proof.Machine
